-- ==== Sys2Proof/Word.lean ====
section
/-! DEFINITION. The part's plain number types, and a table of a fixed number of like cells. -/

namespace Sys2Proof

/-- Eight bits (00_scope 1.6, Octet). -/
abbrev Byte := BitVec 8
/-- A host port, 0 to 3. -/
abbrev Port := Fin 4
/-- A stream id, 0 to 47 (R1). -/
abbrev StreamId := Fin 48
/-- A ring position; index `i` is position `i + 1`, so the fifteen values are positions 1 to 15. -/
abbrev Pos := Fin 15
/-- A page, the cycle count modulo 8 (R4). -/
abbrev Page := Fin 8
/-- An epoch, 0 to 15, counted modulo 16 (R24). -/
abbrev Epoch := BitVec 4
/-- A ticket; 0 stands for no ticket (R18). -/
abbrev Ticket := BitVec 16
/-- A cycle count, 0 to 65535, wrapping (R89). -/
abbrev CycleCount := BitVec 16

/-- A fixed number of like cells. The length is carried with the data, so every index has a cell. -/
structure Table (α : Type) (n : Nat) where
  cells : List α
  size : cells.length = n
deriving DecidableEq, Repr

namespace Table

variable {α β : Type} {n : Nat}

/-- The cell at an index. -/
def get (t : Table α n) (i : Fin n) : α := t.cells[i.val]'(by rw [t.size]; exact i.isLt)

/-- The table with one cell replaced. -/
def set (t : Table α n) (i : Fin n) (a : α) : Table α n :=
  ⟨t.cells.set i.val a, by rw [List.length_set]; exact t.size⟩

/-- The table with one cell changed by a function of its old value. -/
def modify (t : Table α n) (i : Fin n) (f : α → α) : Table α n := t.set i (f (t.get i))

/-- The table whose cell at each index is given by a function of the index. -/
def tabulate (f : Fin n → α) : Table α n := ⟨List.ofFn f, List.length_ofFn⟩

/-- The table whose cells all hold one value. -/
def fill (a : α) : Table α n := ⟨List.replicate n a, List.length_replicate⟩

/-- Every cell changed by one function. -/
def map (f : α → β) (t : Table α n) : Table β n :=
  ⟨t.cells.map f, by rw [List.length_map]; exact t.size⟩

end Table

end Sys2Proof
end

