-- ==== Sys2Proof/Syntax.lean ====
section
/-! DEFINITION. The commands: one constructor for each row of spec/opcode_table.json, in its order. -/

namespace Sys2Proof

/-- What is clocked of a port's DRAIN while a return is being handled (R156), as the operands of a DRAIN
command. -/
structure DrainPart where
  port    : Port
  bits    : List Bool
  release : Bool
deriving DecidableEq, Repr

/-- What arrives with a mark on RGI: the 256 octets of its cycle, the mark's own two included, and what is
clocked of DRAIN transactions while the return is handled, where the `i`-th list of `drains` comes between
the records before and the `i`-th record of the return (R96, R156; log 29). -/
structure Arrival where
  octets : List Byte
  drains : List (List DrainPart)
deriving DecidableEq, Repr

/-- A command. The transaction commands carry the port, the bits the host clocks in on HDI after what the
port has already seen of the transaction, sampled at the rising clock edges in SPI mode 0 as in mode 3, the
header's eight first, and whether select is released after them; a command for a port with no transaction in
progress asserts its select first (R162). The items of the Admission Unit carry nothing: the arbiter chooses
the port and the frame (R40). -/
inductive Instr where
  /-- REQUEST (R164). -/
  | request (p : Port) (bits : List Bool) (release : Bool)
  /-- FETCH (R167). -/
  | fetch (p : Port) (bits : List Bool) (release : Bool)
  /-- DRAIN (R157). -/
  | drain (p : Port) (bits : List Bool) (release : Bool)
  /-- POST (R145). -/
  | post (p : Port) (bits : List Bool) (release : Bool)
  /-- STATUS (R168). -/
  | status (p : Port) (bits : List Bool) (release : Bool)
  /-- TAKE (R181). -/
  | take (p : Port) (bits : List Bool) (release : Bool)
  /-- DONE (R183). -/
  | serviceDone (p : Port) (bits : List Bool) (release : Bool)
  /-- EVENTSET (R184). -/
  | eventset (p : Port) (bits : List Bool) (release : Bool)
  /-- UNKNOWN_TRANSACTION (R162), with the code in its header's high four bits. -/
  | unknownTransaction (code : BitVec 4) (p : Port) (bits : List Bool) (release : Bool)
  /-- OPEN (R50). -/
  | openStream
  /-- ALTER (R52). -/
  | alter
  /-- CLOSE (R53). -/
  | close
  /-- SUBSCRIBE (R54). -/
  | subscribe
  /-- UNSUBSCRIBE (R55). -/
  | unsubscribe
  /-- HANDOVER (R56). -/
  | handover
  /-- STREAM_QUERY (R21). -/
  | streamQuery
  /-- OCCUPANCY_QUERY (R37). -/
  | occupancyQuery
  /-- NODE_QUERY (R143). -/
  | nodeQuery
  /-- FLUSH (R69). -/
  | flush
  /-- ATTACH (R170). -/
  | attach
  /-- DETACH (R173). -/
  | detach
  /-- SET_QUOTA (R175). -/
  | setQuota
  /-- RING_START (R106). -/
  | ringStart
  /-- RING_STOP (R107). -/
  | ringStop
  /-- RING_RESTART (R109). -/
  | ringRestart
  /-- SET_RING_PARAMETERS (R110). -/
  | setRingParameters
  /-- DEVICE_RESET (R176), with the levels of AUTH1 and AUTH0 that an accepted one samples (R174). -/
  | deviceReset (straps : BitVec 2)
  /-- PORT_ENTRY (R59). -/
  | portEntry
  /-- NODE_ENTRY_LOST (R60). -/
  | nodeEntryLost
  /-- NODE_ENTRY_NODE_CHANGED (R61). -/
  | nodeEntryNodeChanged
  /-- GATHER_COUNTER_EXPIRY (R68). -/
  | gatherCounterExpiry
  /-- FREEZE (R72): the freeze claim is granted. -/
  | freeze
  /-- RECONCILIATION (R139): the reconciliation claim is granted. -/
  | reconciliation
  /-- HUB_CYCLE (R89). -/
  | hubCycle
  /-- QUIET_CYCLES_END (R102). -/
  | quietCyclesEnd
  /-- RETURN_EVALUATION (R97): a mark began to arrive on RGI at bit cell `cell`, and `arrival` came
  with it. -/
  | returnEvaluation (cell : Nat) (arrival : Arrival)
  /-- RETURN_WINDOW_EXPIRY (R96): the oldest awaited cycle's window ends with no mark accepted. -/
  | returnWindowExpiry
  /-- BEACON_RECEIVED (R96), with the beacon's 256 octets. -/
  | beaconReceived (octets : List Byte)
  /-- LEASE_EXPIRY (R171). -/
  | leaseExpiry (p : Port)
  /-- LAPSE (R172). -/
  | lapse (p : Port)
  /-- POWER_ON_RESET (R176), with the straps and whether NRESET is held low. -/
  | powerOnReset (straps : BitVec 2) (nresetLow : Bool)
  /-- PIN_RESET (R176), with the straps. -/
  | pinReset (straps : BitVec 2)
  /-- NRESET_RELEASE (R176). -/
  | nresetRelease
deriving DecidableEq, Repr

end Sys2Proof
end

