-- ==== Sys2Proof/Decode.lean ====
section
/-! DEFINITION. Reading commands and request frames from octets. The opcode table gives its rows no
bits, so no word spells a command; what the part itself decodes are transaction headers (R162, R191) and
request frames (R192). -/

namespace Sys2Proof

/-- The command that a word spells by the table's bits. No row of spec/opcode_table.json gives bits
("fields": []), so no word spells a command (log 17). -/
def decodeTableWord (_nbits _w : Nat) : Option Instr := none

/-! ## Bits and octets on a line (R186) -/

/-- The bits of an octet, the most significant first. -/
def octetBits (b : Byte) : List Bool := [7, 6, 5, 4, 3, 2, 1, 0].map b.getLsbD

/-- The octet of eight bits, the first the most significant. -/
def octetOf (bits : List Bool) : Byte :=
  bits.foldl (fun b x => (b <<< 1) ||| (if x then 1 else 0)) 0

/-! ## Transaction headers (R162, R191) -/

/-- Transaction kinds (R162); UNKNOWN stands for any other code. -/
inductive TxnKind where
  | request | fetch | drain | post | status | take | serviceDone | eventset | unknown
deriving DecidableEq, Repr

/-- The kind that a transaction header names in its high four bits. The low four bits are not read (R162). -/
def headerKind (header : Byte) : TxnKind :=
  match (header.extractLsb' 4 4 : BitVec 4).toNat with
  | 0x1 => .request
  | 0x2 => .fetch
  | 0x3 => .drain
  | 0x4 => .post
  | 0x5 => .status
  | 0x6 => .take
  | 0x7 => .serviceDone
  | 0x8 => .eventset
  | _ => .unknown

/-- The command of a transaction of a kind; one of unknown kind carries the header's code. -/
def TxnKind.command (k : TxnKind) (code : BitVec 4) (p : Port) (bits : List Bool) (release : Bool) : Instr :=
  match k with
  | .request => .request p bits release
  | .fetch => .fetch p bits release
  | .drain => .drain p bits release
  | .post => .post p bits release
  | .status => .status p bits release
  | .take => .take p bits release
  | .serviceDone => .serviceDone p bits release
  | .eventset => .eventset p bits release
  | .unknown => .unknownTransaction code p bits release

/-- What the bits that a host clocks in from the assertion of a port's select on come to: the transaction that
the header's eight name. Fewer than eight name no kind (R162). -/
def selectPeriod (p : Port) (bits : List Bool) (release : Bool) : Option Instr :=
  if bits.length < 8 then none
  else
    let header := octetOf (bits.take 8)
    some ((headerKind header).command (header.extractLsb' 4 4) p bits release)

/-! ## Request frames (R192) -/

/-- The requests of R192. -/
inductive RequestKind where
  | openStream | alter | close | subscribe | unsubscribe | handover
  | streamQuery | occupancyQuery | nodeQuery | flush
  | attach | detach
  | setQuota | ringStart | ringStop | ringRestart | setRingParameters | deviceReset
deriving DecidableEq, Repr

/-- The request that a kind code names (R192). -/
def requestKindOf (code : Nat) : Option RequestKind :=
  match code with
  | 0x01 => some .openStream
  | 0x02 => some .alter
  | 0x03 => some .close
  | 0x04 => some .subscribe
  | 0x05 => some .unsubscribe
  | 0x06 => some .handover
  | 0x10 => some .streamQuery
  | 0x11 => some .occupancyQuery
  | 0x12 => some .nodeQuery
  | 0x13 => some .flush
  | 0x20 => some .attach
  | 0x21 => some .detach
  | 0x30 => some .setQuota
  | 0x31 => some .ringStart
  | 0x32 => some .ringStop
  | 0x33 => some .ringRestart
  | 0x34 => some .setRingParameters
  | 0x35 => some .deviceReset
  | _ => none

/-- Octet `n` of a frame or a cycle; an octet that was not received reads as 0 (log 19). -/
def octetAt (f : List Byte) (n : Nat) : Byte := f.getD n 0

/-- Octet `n` as a number. -/
def numAt (f : List Byte) (n : Nat) : Nat := (octetAt f n).toNat

/-- The tag of a request frame (R164, R192). -/
def frameTag (f : List Byte) : Byte := octetAt f 1

/-- The kind octet of a request frame as it was given (R48, R192). -/
def frameKindOctet (f : List Byte) : Byte := octetAt f 2

/-- The request a frame names, if its kind is known (R47). -/
def frameKind (f : List Byte) : Option RequestKind := requestKindOf (numAt f 2)

/-- The length that a request kind calls for; Open and Alter carry their sink count in octet 9 (R47, R192). -/
def frameLength (k : RequestKind) (f : List Byte) : Nat :=
  match k with
  | .openStream | .alter => 10 + numAt f 9
  | .close | .subscribe | .unsubscribe | .streamQuery | .nodeQuery => 4
  | .handover | .attach | .setQuota => 5
  | .occupancyQuery | .flush | .detach | .ringStart | .ringStop | .ringRestart | .deviceReset => 3
  | .setRingParameters => 8

/-- A frame of kind `k` is well formed: its length is the one its kind calls for, and a frame of Open or
Alter is long enough to carry its sink count (R47). -/
def frameWellFormed (k : RequestKind) (f : List Byte) : Bool :=
  f.length == frameLength k f

/-- The port that a number names. -/
def portOf (n : Nat) : Option Port := if h : n < 4 then some ⟨n, h⟩ else none

/-- The stream id that a number names. -/
def streamOf (n : Nat) : Option StreamId := if h : n < 48 then some ⟨n, h⟩ else none

/-- The ring position that a number 1 to 15 names. -/
def posOf (n : Nat) : Option Pos := if h : 1 ≤ n ∧ n ≤ 15 then some ⟨n - 1, by omega⟩ else none

/-- The number 1 to 15 of a ring position. -/
def posNum (p : Pos) : Nat := p.val + 1

/-- A list of positions, if every octet names one. -/
def positionsOf : List Byte → Option (List Pos)
  | [] => some []
  | b :: bs =>
    match posOf b.toNat, positionsOf bs with
    | some p, some ps => some (p :: ps)
    | _, _ => none

/-- A yes-or-no octet: 0 or 1 (R186). -/
def flagOf (n : Nat) : Option Bool :=
  match n with
  | 0 => some false
  | 1 => some true
  | _ => none

end Sys2Proof
end

