-- ==== Sys2Proof/Config.lean ====
section
/-! DEFINITION. The part's fixed sizes, and the free values: what the manual leaves open. -/

namespace Sys2Proof.Config

/-- Request frames a port's request queue holds (R161). -/
def requestRoom : Nat := 4
/-- Entries a port's response queue holds, the reserved one included (R41, R161). -/
def responseRoom : Nat := 8
/-- Octets a port's delivery queue holds (R156, R161). -/
def deliveryRoom : Nat := 4096
/-- Levels a service stack holds (R177). -/
def stackRoom : Nat := 2
/-- Octets of the payload area (R88). -/
def payloadArea : Nat := 224
/-- REFCK periods in one lease unit of 10 ms at 32.768 MHz (00_scope 1.4, R171). -/
def refckPerLeaseUnit : Nat := 327680
/-- Bit cells in one cycle (R87). -/
def cellsPerCycle : Nat := 2048
/-- A return within this many bit cells of L is accepted at once (R96). -/
def driftFree : Nat := 4
/-- A return within this many bit cells of L is accepted with drift follow (R96). -/
def driftLimit : Nat := 64
/-- With L unknown a return is accepted up to this delay (R96). -/
def openWindow : Nat := 4096
/-- Failed numbering attempts that end the procedure (R131). -/
def numberAttempts : Nat := 3
/-- Refresh failures that make a node LOST (R124). -/
def refreshFailures : Nat := 4

/-- FREE VALUE (log 4). The REFCK periods that have passed in a running lease timer since it was
loaded, when STATUS reads it; the argument tells one reading from the next. -/
opaque leaseElapsed : Nat → Nat

/-- FREE VALUE (log 8). The break position that a beacon leaves whose header check is good and whose
origin octet is none of the positions 1 to 15; the ring protocol sends no such beacon (R94). -/
opaque strayOrigin : Byte → Fin 17

/-- FREE VALUE (log 38). The level at which HDO of a port is driven while select is asserted, HCLK is high and no
bit has gone out, as before the first falling edge of mode 3; the first argument tells one reading from the next. -/
opaque undrivenLevel : Nat → Fin 4 → Bool

/-- FREE VALUE (log 27). What a ring node's WRITE tap has to send for a stream before the node has had any
sample for it: whether it goes out as FRESH, the node's sequence, and the octets of the sample. -/
opaque firstOutput : StreamId → Bool × BitVec 4 × List Byte

/-- FREE VALUE (log 39). The octets that a ring node's WRITE tap sends for a sample whose length is not the one the
slot takes, as after the stream was resized: of the sample and of the slot's payload size. -/
opaque resizedSample : List Byte → Nat → List Byte

/-- FREE VALUE (log 28). The octets that a Node Query answer carries for class, revision, serial and tap
capacity when no identity is held; the argument tells one answer from the next. -/
opaque absentIdentity : Nat → List Byte

end Sys2Proof.Config
end

