-- ==== Sys2Proof/Machine/State.lean ====
section
/-! DEFINITION. The state of the part, block by block (00_scope 1.3), as plain data, and State.reset. -/

namespace Sys2Proof.Machine

/-! ## Streams (chapter 1) -/

/-- The writer of a stream's slots (R2). -/
inductive Source where
  | host
  | node (p : Pos)
deriving DecidableEq, Repr

/-- The absence policy (R2): REPEAT or VOID. -/
inductive Policy where
  | void
  | again
deriving DecidableEq, Repr

/-- The full definition of one stream: the nine fields of R2. -/
structure Descriptor where
  owner         : Port
  source        : Source
  sinks         : List Pos
  ownerReceives : Bool
  subscribers   : List Port
  payload       : Nat
  divisor       : Nat
  phase         : Nat
  policy        : Policy
deriving DecidableEq, Repr

/-- One Stream Table entry: three views and the batch membership flag (R1). -/
structure Entry where
  staged   : Option Descriptor
  outgoing : Option Descriptor
  inForce  : Option Descriptor
  member   : Bool
deriving DecidableEq, Repr

/-- The state of an entry, derived from its views (R9). -/
inductive EntryState where
  | free | opening | live | changing | closing
deriving DecidableEq, Repr

/-! ## Plans (chapter 2) -/

/-- One appearance of a stream on one page (R26). -/
structure Placement where
  stream : StreamId
  offset : Nat
  length : Nat
deriving DecidableEq, Repr

/-- What a tap tells its node to do with a slot (R30). -/
inductive TapRole where
  | read | write
deriving DecidableEq, Repr

/-- A node's instruction for one placement (R30). -/
structure Tap where
  page   : Page
  role   : TapRole
  offset : Nat
  length : Nat
  stream : StreamId
deriving DecidableEq, Repr

/-- Eight page layouts and fifteen tap lists, labelled with an epoch (R24). -/
structure Plan where
  epoch   : Epoch
  layouts : Table (List Placement) 8
  taps    : Table (List Tap) 15
deriving DecidableEq, Repr

/-- The Plan Builder's plans (R24). -/
structure Plans where
  inForce  : Plan
  outgoing : Option Plan
  retired  : Option Plan
deriving DecidableEq, Repr

/-! ## Events (chapter 10) -/

/-- The seven event kinds, in rank order (R178). -/
inductive EventKind where
  | ringDown | streamChange | overflow | protocol | response | delivery | ringChange
deriving DecidableEq, Repr

/-- The level of an event kind or of a service (R177). -/
inductive Level where
  | routine | urgent
deriving DecidableEq, Repr

/-- What an Event Unit keeps for one kind (R177). -/
structure KindState where
  pending  : Bool
  repeated : Bool
  enabled  : Bool
  level    : Level
deriving DecidableEq, Repr

/-- One Event Unit (R177). The stack's top is the head of its list. -/
structure EventUnit where
  kinds     : Table KindState 7
  stack     : List Level
  threshold : Nat
deriving DecidableEq, Repr

/-- The state of a freshly cleared kind: the default level is URGENT for ranks 0 to 2 (R178). -/
def KindState.cleared (rank : Fin 7) : KindState :=
  { pending := false, repeated := false, enabled := false,
    level := if rank.val ≤ 2 then .urgent else .routine }

/-- An Event Unit after a reset and after a session end (R177). -/
def EventUnit.cleared : EventUnit :=
  { kinds := Table.tabulate KindState.cleared, stack := [], threshold := 1 }

/-! ## Records, notices, answers (chapters 8, 9 and 11) -/

/-- The validity of a slot or of a delivery record (R150, R154). -/
inductive Validity where
  | void | fresh | repeated | held | damaged | foreign
deriving DecidableEq, Repr

/-- A delivery record (R154). Its payload length is the length of `payload`. -/
structure Record where
  stream   : StreamId
  validity : Validity
  sequence : BitVec 4
  cycle    : CycleCount
  gap      : Nat
  payload  : List Byte
deriving DecidableEq, Repr

/-- Refusal reasons (R45, R195). -/
inductive Reason where
  | notAttached | malformed | badArgument | notAuthority | ringState | noSuchStream | notOwner
  | notSubscriber | already | nodeUnavailable | noFreeEntry | pageFull | overQuota | tapsExhausted
deriving DecidableEq, Repr

/-- Reasons of a STREAM_CLOSED notice (R63, R195). -/
inductive CloseReason where
  | ownerClosed | sourceLost | sinksLost | nodeChanged | ringStopped
deriving DecidableEq, Repr

/-- The ring states (R100). -/
inductive RingState where
  | off | quieting | numbering | identifying | running | broken | halted
deriving DecidableEq, Repr

/-- Reasons of a RING_STATE notice (R105). -/
inductive RingReason where
  | start | stop | restart | numbered | healed | misses | shape | noReturn | tooMany | stopped
deriving DecidableEq, Repr

/-- Node states (R126, R127). -/
inductive NodeState where
  | absent | unidentified | ready | stale | lost
deriving DecidableEq, Repr

/-- Causes of a NODE_STATE notice (R129). -/
inductive NodeCause where
  | distribution | verification | switch | refresh | refreshFailed
deriving DecidableEq, Repr

/-- A notice: its kind and contents (R166, R193). -/
inductive Notice where
  | settled (ticket : Ticket) (epoch : Epoch)
  | streamClosed (stream : StreamId) (reason : CloseReason) (position : Option Pos)
  | sinkRemoved (stream : StreamId) (position : Pos)
  | streamGained (stream : StreamId) (former : Port)
  | ringState (state : RingState) (breakPosition : Fin 17) (reason : RingReason)
  | nodeState (position : Pos) (state : NodeState) (held : Option Epoch) (failures : Nat)
      (cause : NodeCause)
deriving DecidableEq, Repr

/-- The outcome of a request, as its answer carries it (R48). The data of a DONE are the octets that
R193 lays out for the request kind. -/
inductive Reply where
  | done (data : List Byte)
  | accepted (stream : StreamId) (ticket : Ticket)
  | refused (reason : Reason) (detail : Nat)
deriving DecidableEq, Repr

/-- A response queue entry: an answer with its tag and request kind, or a notice (R166). -/
inductive ResponseEntry where
  | answer (tag : Byte) (kind : Byte) (reply : Reply)
  | notice (n : Notice)
deriving DecidableEq, Repr

/-! ## Host ports (chapter 9) -/

/-- Port states (R161). -/
inductive PortState where
  | detached | attached | lapsed
deriving DecidableEq, Repr

/-- Reset causes (R176). -/
inductive ResetCause where
  | power | pin | command
deriving DecidableEq, Repr

/-- A transaction in progress, from the assertion of select on (R161, R162): its kind, none until the header's
eighth clock; the bits clocked in of the octet that is not yet whole; the whole octets clocked in after the
header; the octets still to go out of what it is sending, the status octet during the header (R163); and
whether sending the last of them removes the head of the queue they came from (R157, R167). -/
structure Txn where
  kind      : Option TxnKind
  bits      : List Bool
  taken     : List Byte
  sending   : List Byte
  removes   : Bool
deriving DecidableEq, Repr

/-- One Host Port with its Event Unit and its Delivery Queue (R38, R144, R161, R177). -/
structure HostPort where
  state        : PortState
  cause        : ResetCause
  leaseSetting : Byte
  /-- stopped, or the remaining time in REFCK periods when it was last loaded -/
  leaseTimer   : Option Nat
  lapseDue     : Bool
  requests     : List (List Byte)
  responses    : List ResponseEntry
  txn          : Option Txn
  /-- transactions completed while the port's lapse is due, whose effect follows it, oldest first (R171) -/
  ended        : List Txn
  authority    : Bool
  reserved     : Bool
  events       : EventUnit
  delivery     : List Record
  gaps         : Table Nat 48
  /-- select is still asserted from a transaction that a reset voided, or from a select period begun while NRESET
  was low (R176; log 41) -/
  heldOver     : Bool
  /-- bits clocked out on HDO in the current or last transaction, the status octet's first -/
  hdo          : List Bool
deriving DecidableEq, Repr

/-- A Host Port after a reset with the given cause and authority flag (R161). -/
def HostPort.reset (cause : ResetCause) (authority : Bool) : HostPort :=
  { state := .detached, cause := cause, leaseSetting := 0, leaseTimer := none, lapseDue := false,
    requests := [], responses := [], txn := none, ended := [], authority := authority, reserved := false,
    events := EventUnit.cleared, delivery := [], gaps := Table.fill 0, heldOver := false, hdo := [] }

/-! ## Admission Unit (chapter 3) -/

/-- The role in which a stream referred to a node (R57). -/
inductive RefRole where
  | source | sink
deriving DecidableEq, Repr

/-- An entry of the internal edit list (R57). -/
inductive InternalEntry where
  | port (p : Port)
  | lost (p : Pos)
  | changed (p : Pos) (refs : List (StreamId × RefRole))
deriving DecidableEq, Repr

/-- An item: a request frame of a port, or an internal entry (R39). -/
inductive Item where
  | frame (p : Port) (octets : List Byte)
  | internal (e : InternalEntry)
deriving DecidableEq, Repr

/-- The Admission Unit with the ticket counter, the batch and the quotas (R15, R18, R19, R38). -/
structure Admission where
  internal     : List InternalEntry
  lastServed   : Port
  processing   : Option Item
  ticket       : Ticket
  batchEmpty   : Bool
  batchTickets : Table Ticket 4
  quotas       : Table Nat 4
deriving DecidableEq, Repr

/-! ## Turnover Controller (chapter 4) -/

/-- Turnover states (R65). -/
inductive TurnoverState where
  | idle | gathering | waiting | distributing | switching
deriving DecidableEq, Repr

/-- What a work item sends (R73). -/
inductive Mark where
  | load | keep
deriving DecidableEq, Repr

/-- How far a work item has come (R65). -/
inductive WorkOutcome where
  | opened | acknowledged | stale | skipped
deriving DecidableEq, Repr

/-- A work item (R65). -/
structure WorkItem where
  position : Pos
  mark     : Mark
  parts    : Nat
  next     : Nat
  outcome  : WorkOutcome
deriving DecidableEq, Repr

/-- The Turnover Controller (R65), with the freeze claim it has made and not yet been granted (R70). -/
structure Turnover where
  state      : TurnoverState
  gather     : Nat
  flush      : Bool
  target     : Option Epoch
  epoch      : Epoch
  outTickets : Table Ticket 4
  work       : List WorkItem
  claim      : Bool
deriving DecidableEq, Repr

/-! ## Ring Engine (chapter 5) -/

/-- The quiet destination, when there is one (R100). -/
inductive QuietDest where
  | off | numbering
deriving DecidableEq, Repr

/-- Cycle rates (R87): 4000, 8000 and 16000 cycles per second. -/
inductive CycleRate where
  | r4000 | r8000 | r16000
deriving DecidableEq, Repr

/-- The record of a cycle sent whose return has not been evaluated (R89). -/
structure CycleRecord where
  count  : CycleCount
  epoch  : Epoch
  awaits : Bool
  start  : Nat
deriving DecidableEq, Repr

/-- The Ring Engine (R100). `nextCell` is the bit cell at which the next hub cycle's mark begins, `rgo` the
octets of the last cycle sent, none while the ring is OFF, and `beaconed` the counts of the cycles that a
beacon concluded, whose own hub mark is not accepted any more (R96; log 32). -/
structure Ring where
  state        : RingState
  quietDest    : Option QuietDest
  quietLeft    : Nat
  sent         : List CycleRecord
  rate         : CycleRate
  nextCount    : CycleCount
  latency      : Option Nat
  misses       : Nat
  heal         : Nat
  healOdd      : Bool
  shape        : Nat
  breakPos     : Fin 17
  missLimit    : Nat
  healCount    : Nat
  retryLimit   : Nat
  gatherWindow : Nat
  nextCell     : Nat
  rgo          : List Byte
  beaconed     : List CycleCount
deriving DecidableEq, Repr

/-! ## Control Channel (chapter 6) -/

/-- Who asked for an exchange (R122). -/
inductive User where
  | numbering | identification | verification | distribution | refresh
deriving DecidableEq, Repr

/-- A message of an exchange: kind, target and body (R111, R118 to R121). -/
inductive Message where
  | number (epoch : Epoch)
  | identify (p : Pos)
  | tapload (p : Pos) (epoch : Epoch) (part parts : Nat) (taps : List Tap)
  | keep (p : Pos) (epoch : Epoch)
deriving DecidableEq, Repr

/-- The outstanding exchange (R111). -/
structure Exchange where
  user    : User
  message : Message
  failed  : Nat
  limit   : Nat
deriving DecidableEq, Repr

/-- The outstanding attempt (R111). -/
structure Attempt where
  sequence : Byte
  count    : CycleCount
deriving DecidableEq, Repr

/-- The refresh in progress (R111); `ended` once a freeze has been granted (R125). -/
structure Refresh where
  position : Pos
  parts    : Nat
  next     : Nat
  ended    : Bool
deriving DecidableEq, Repr

/-- The Control Channel (R111). -/
structure Control where
  exchange : Option Exchange
  attempt  : Option Attempt
  sequence : Byte
  refresh  : Option Refresh
deriving DecidableEq, Repr

/-! ## Node Table (chapter 7) -/

/-- What a node reported of itself (R120, R126). -/
structure Identity where
  cls      : Byte
  revision : Byte
  serial   : BitVec 32
  capacity : Nat
deriving DecidableEq, Repr

/-- One Node Table entry (R126). -/
structure NodeEntry where
  state    : NodeState
  identity : Option Identity
  held     : Option Epoch
  failures : Nat
deriving DecidableEq, Repr

/-- An entry in one state with every other value cleared (R126, R132). -/
def NodeEntry.blank (st : NodeState) : NodeEntry :=
  { state := st, identity := none, held := none, failures := 0 }

/-- The table retained across a restart (R137). -/
structure Retained where
  entries : Table NodeEntry 15
  count   : Fin 16
deriving DecidableEq, Repr

/-- The Node Table procedure under way: numbering with its failed attempts (R131), identification with
the position being asked (R134), the reconciliation claim (R139), or a verification round with the
positions not yet concluded (R141). -/
inductive Procedure where
  | idle
  | numbering (failed : Nat)
  | identifying (p : Pos)
  | reconciling
  | verifying (left : List Pos)
deriving DecidableEq, Repr

/-- The Node Table (R126). -/
structure Nodes where
  entries   : Table NodeEntry 15
  count     : Fin 16
  retained  : Option Retained
  procedure : Procedure
deriving DecidableEq, Repr

/-! ## Slot Mover (chapter 8) -/

/-- A post buffer (R144); `fresh` is the state the manual calls NEW. -/
inductive PostBuffer where
  | empty
  | fresh (sample : List Byte)
  | held (sample : List Byte)
deriving DecidableEq, Repr

/-- For each stream with receiving ports, those ports in order (R151). -/
abbrev DeliveryTable := List (StreamId × List Port)

/-- The Slot Mover (R144). -/
structure Mover where
  posts           : Table PostBuffer 48
  sequences       : Table (BitVec 4) 48
  delivery        : DeliveryTable
  retiredDelivery : Option DeliveryTable
deriving DecidableEq, Repr

/-! ## The part -/

/-- The whole part. `pending` holds the commands that wait, and `freeCount` tells one reading of a free
value from the next: both are the model's own (logs 4, 17 and 28). -/
structure State where
  ports     : Table HostPort 4
  admission : Admission
  streams   : Table Entry 48
  plans     : Plans
  turnover  : Turnover
  ring      : Ring
  control   : Control
  nodes     : Nodes
  mover     : Mover
  nresetLow : Bool
  freeCount : Nat
  pending   : List Instr
deriving DecidableEq, Repr

/-- No command of this part raises a fault: no rule of the spec stops the part (INVENTORY, Faults). -/
inductive Fault where
deriving DecidableEq, Repr

/-- Why a command has no meaning in this model. -/
inductive Refusal where
  /-- Raised by exec alone, for a command whose meaning has not been written; no arm raises it now.
  Safe: the model stops where the part goes on. -/
  | notModelled (mnemonic : String)
deriving DecidableEq, Repr

/-- An entry with all views absent (R23). -/
def Entry.free : Entry := { staged := none, outgoing := none, inForce := none, member := false }

/-- The plan of a view in which every entry is absent (R24). -/
def Plan.empty (e : Epoch) : Plan :=
  { epoch := e, layouts := Table.fill [], taps := Table.fill [] }

/-- The Plan Builder after a reset (R24). -/
def Plans.reset : Plans := { inForce := Plan.empty 0, outgoing := none, retired := none }

/-- The Admission Unit after a reset (R15, R18, R23, R38). -/
def Admission.reset : Admission :=
  { internal := [], lastServed := 3, processing := none, ticket := 1, batchEmpty := true,
    batchTickets := Table.fill 0, quotas := Table.fill 56 }

/-- The Turnover Controller after a reset (R65). -/
def Turnover.reset : Turnover :=
  { state := .idle, gather := 0, flush := false, target := none, epoch := 0,
    outTickets := Table.fill 0, work := [], claim := false }

/-- The Ring Engine after a reset (R100). -/
def Ring.reset : Ring :=
  { state := .off, quietDest := none, quietLeft := 0, sent := [], rate := .r8000, nextCount := 0,
    latency := none, misses := 0, heal := 0, healOdd := false, shape := 0, breakPos := 0,
    missLimit := 3, healCount := 4, retryLimit := 3, gatherWindow := 8, nextCell := 0, rgo := [],
    beaconed := [] }

/-- The Control Channel after a reset (R111). -/
def Control.reset : Control := { exchange := none, attempt := none, sequence := 0, refresh := none }

/-- The Node Table after a reset (R126). -/
def Nodes.reset : Nodes :=
  { entries := Table.fill (NodeEntry.blank .absent), count := 0, retained := none, procedure := .idle }

/-- The Slot Mover after a reset (R144). -/
def Mover.reset : Mover :=
  { posts := Table.fill .empty, sequences := Table.fill 0, delivery := [], retiredDelivery := none }

/-- The part right after a power-on reset with both straps low, so that port 0 holds ring authority, and
NRESET high (DESIGN CHOICE, log 6). -/
def State.reset : State :=
  { ports := Table.tabulate fun p => HostPort.reset .power (p == 0), admission := Admission.reset,
    streams := Table.fill Entry.free, plans := Plans.reset, turnover := Turnover.reset,
    ring := Ring.reset, control := Control.reset, nodes := Nodes.reset, mover := Mover.reset,
    nresetLow := false, freeCount := 0, pending := [] }

end Sys2Proof.Machine
end

