-- ==== Sys2Proof/Machine/Codes.lean ====
section
/-! DEFINITION. Octet layouts and codes of chapter 11, and the two check computations. -/

namespace Sys2Proof.Machine

/-! ## Numbers and flags (R186) -/

/-- A number below 256 as one octet. -/
def octet (n : Nat) : Byte := BitVec.ofNat 8 n

/-- A flag: 1 for set, 0 for clear. -/
def flagOctet (b : Bool) : Byte := if b then 1 else 0

/-- Sixteen bits as two octets, most significant first. -/
def octets16 (v : BitVec 16) : List Byte := [v.extractLsb' 8 8, v.extractLsb' 0 8]

/-- Thirty-two bits as four octets, most significant first. -/
def octets32 (v : BitVec 32) : List Byte :=
  [v.extractLsb' 24 8, v.extractLsb' 16 8, v.extractLsb' 8 8, v.extractLsb' 0 8]

/-- A number below 65536 as two octets. -/
def octetsNat (n : Nat) : List Byte := octets16 (BitVec.ofNat 16 n)

/-- An epoch as one octet. -/
def epochOctet (e : Epoch) : Byte := e.setWidth 8

/-- An epoch field that may hold none: 0xFF for none. -/
def heldOctet : Option Epoch → Byte
  | some e => epochOctet e
  | none => 0xFF

/-- A position field: 0 for none. -/
def positionOctet : Option Pos → Byte
  | some p => octet (posNum p)
  | none => 0

/-- A list made exactly `n` octets long with octets of 0. -/
def padTo (n : Nat) (l : List Byte) : List Byte := (l ++ List.replicate n 0).take n

/-- `n` octets of 0. -/
def zeros (n : Nat) : List Byte := List.replicate n 0

/-! ## Codes (R195) -/

def Reason.code : Reason → Nat
  | .notAttached => 1 | .malformed => 2 | .badArgument => 3 | .notAuthority => 4 | .ringState => 5
  | .noSuchStream => 6 | .notOwner => 7 | .notSubscriber => 8 | .already => 9
  | .nodeUnavailable => 10 | .noFreeEntry => 11 | .pageFull => 12 | .overQuota => 13
  | .tapsExhausted => 14

def Validity.code : Validity → Nat
  | .void => 0 | .fresh => 1 | .repeated => 2 | .held => 3 | .damaged => 4 | .foreign => 5

def CloseReason.code : CloseReason → Nat
  | .ownerClosed => 1 | .sourceLost => 2 | .sinksLost => 3 | .nodeChanged => 4 | .ringStopped => 5

def RingState.code : RingState → Nat
  | .off => 0 | .quieting => 1 | .numbering => 2 | .identifying => 3 | .running => 4 | .broken => 5
  | .halted => 6

def RingReason.code : RingReason → Nat
  | .start => 1 | .stop => 2 | .restart => 3 | .numbered => 4 | .healed => 5 | .misses => 6
  | .shape => 7 | .noReturn => 8 | .tooMany => 9 | .stopped => 10

def NodeState.code : NodeState → Nat
  | .absent => 0 | .unidentified => 1 | .ready => 2 | .stale => 3 | .lost => 4

def NodeCause.code : NodeCause → Nat
  | .distribution => 1 | .verification => 2 | .switch => 3 | .refresh => 4 | .refreshFailed => 5

def EntryState.code : EntryState → Nat
  | .free => 0 | .opening => 1 | .live => 2 | .changing => 3 | .closing => 4

def TurnoverState.code : TurnoverState → Nat
  | .idle => 0 | .gathering => 1 | .waiting => 2 | .distributing => 3 | .switching => 4

def PortState.code : PortState → Nat
  | .detached => 0 | .attached => 1 | .lapsed => 2

def ResetCause.code : ResetCause → Nat
  | .power => 0 | .pin => 1 | .command => 2

/-- Level codes outside the level set: 0 NONE, 1 ROUTINE, 2 URGENT (R191). -/
def Level.code : Level → Nat
  | .routine => 1 | .urgent => 2

/-- Rate codes (R192). -/
def CycleRate.code : CycleRate → Nat
  | .r4000 => 0 | .r8000 => 1 | .r16000 => 2

/-- The rate a code names (R192). -/
def rateOf (n : Nat) : Option CycleRate :=
  match n with
  | 0 => some .r4000
  | 1 => some .r8000
  | 2 => some .r16000
  | _ => none

/-- A source: 0 for HOST and p for NODE p (R192). -/
def Source.code : Source → Nat
  | .host => 0
  | .node p => posNum p

/-- The source an octet names (R192). -/
def sourceOf (n : Nat) : Option Source :=
  if n = 0 then some .host else (posOf n).map Source.node

/-- Absence policy: 0 for VOID and 1 for REPEAT (R192). -/
def Policy.code : Policy → Nat
  | .void => 0 | .again => 1

/-- The absence policy an octet names (R192). -/
def policyOf (n : Nat) : Option Policy :=
  match n with
  | 0 => some .void
  | 1 => some .again
  | _ => none

/-- A set of event kinds: bit k for the kind of rank k, bit 7 is 0 (R191). -/
def kindSet (f : Fin 7 → Bool) : Byte :=
  (List.finRange 7).foldl (fun b k => if f k then b ||| (1 <<< k.val) else b) 0

/-! ## Answers and notices (R193) -/

/-- A descriptor's 16 octets. -/
def Descriptor.octets (d : Descriptor) : List Byte :=
  [octet d.owner.val, octet d.source.code, flagOctet d.ownerReceives, octet d.payload,
   octet d.divisor, octet d.phase, octet d.policy.code, octet d.sinks.length] ++
  padTo 4 (d.sinks.map fun p => octet (posNum p)) ++
  [octet d.subscribers.length] ++ padTo 3 (d.subscribers.map fun p => octet p.val)

/-- A view: a presence flag and 16 octets, all 0 when absent. -/
def viewOctets : Option Descriptor → List Byte
  | some d => 1 :: d.octets
  | none => 0 :: zeros 16

/-- A notice's kind and contents. -/
def Notice.octets : Notice → List Byte
  | .settled t e => 0x01 :: (octets16 t ++ [epochOctet e])
  | .streamClosed id r p => [0x02, octet id.val, octet r.code, positionOctet p]
  | .sinkRemoved id p => [0x03, octet id.val, octet (posNum p)]
  | .streamGained id q => [0x04, octet id.val, octet q.val]
  | .ringState st b r => [0x05, octet st.code, octet b.val, octet r.code]
  | .nodeState p st h f c => [0x06, octet (posNum p), octet st.code, heldOctet h, octet f, octet c.code]

/-- An outcome and what follows it. -/
def Reply.octets : Reply → List Byte
  | .done data => 0 :: data
  | .accepted id t => 1 :: octet id.val :: octets16 t
  | .refused r d => [2, octet r.code, octet d]

/-- A response entry: its length, its type, and its contents. The length counts the entry's own octets. -/
def ResponseEntry.octets (e : ResponseEntry) : List Byte :=
  let body := match e with
    | .answer tag kind reply => 1 :: tag :: kind :: reply.octets
    | .notice n => 2 :: n.octets
  octet (body.length + 1) :: body

/-! ## Delivery records (R194) -/

/-- A delivery record's octets: a header of six and the payload. -/
def Record.octets (r : Record) : List Byte :=
  [octet r.stream.val, (octet r.validity.code <<< 4) ||| r.sequence.setWidth 8] ++
  octets16 r.cycle ++ [octet r.gap, octet r.payload.length] ++ r.payload

/-- The empty-record marker (R157). -/
def emptyMarker : List Byte := 0xFF :: zeros 5

/-- The size of a record, its header of six octets and its payload (R154). -/
def Record.size (r : Record) : Nat := 6 + r.payload.length

/-- The occupancy of a delivery queue (R144). -/
def occupancy (q : List Record) : Nat := (q.map Record.size).sum

/-! ## Slots (R187) -/

/-- A slot's status octet: validity, sequence, epoch tag. -/
def slotStatus (validity : BitVec 2) (sequence : BitVec 4) (tag : BitVec 2) : Byte :=
  validity ++ sequence ++ tag

/-- The epoch tag: the low two bits of an epoch (R150). -/
def epochTag (e : Epoch) : BitVec 2 := e.extractLsb' 0 2

/-- The epoch tag of a status octet. -/
def slotTag (b : Byte) : BitVec 2 := b.extractLsb' 0 2

/-- The sequence of a status octet. -/
def slotSequence (b : Byte) : BitVec 4 := b.extractLsb' 2 4

/-- The validity of a status octet. Two bits name VOID, FRESH, REPEATED or HELD, so none is left over. -/
def slotValidity (b : Byte) : Validity :=
  match (b.extractLsb' 6 2 : BitVec 2).toNat with
  | 0 => .void
  | 1 => .fresh
  | 2 => .repeated
  | _ => .held

/-! ## The control field (R190) -/

/-- A tap record, a number of 24 bits in three octets. -/
def Tap.octets (t : Tap) : List Byte :=
  let w : BitVec 24 :=
    BitVec.ofNat 3 t.page.val ++ BitVec.ofNat 1 (match t.role with | .read => 0 | .write => 1) ++
      BitVec.ofNat 8 t.offset ++ BitVec.ofNat 6 t.length ++ BitVec.ofNat 6 t.stream.val
  [w.extractLsb' 16 8, w.extractLsb' 8 8, w.extractLsb' 0 8]

/-- A message's kind code. -/
def Message.code : Message → Byte
  | .number _ => 0x01
  | .identify _ => 0x10
  | .tapload _ _ _ _ _ => 0x11
  | .keep _ _ => 0x12

/-- A message's target: 0 for a broadcast. -/
def Message.target : Message → Byte
  | .number _ => 0
  | .identify p | .tapload p _ _ _ _ | .keep p _ => octet (posNum p)

/-- A message's body of 13 octets, unused octets 0. NUMBER leaves the hub with counter 1 (R118). -/
def Message.body : Message → List Byte
  | .number e => padTo 13 [1, epochOctet e]
  | .identify _ => zeros 13
  | .tapload _ e part parts taps =>
    padTo 13 ([epochOctet e, octet part, octet parts, octet taps.length] ++ taps.flatMap Tap.octets)
  | .keep _ e => padTo 13 [epochOctet e]

/-- The control field of a message with a sequence number. -/
def Message.octets (m : Message) (sequence : Byte) : List Byte :=
  m.code :: m.target :: sequence :: m.body

/-- The control field of kind NONE. -/
def fieldNone : List Byte := zeros 16

/-- The control field of a quiet cycle (R119). -/
def fieldQuiet : List Byte := 0x02 :: zeros 15

/-! ## Checks (R188, R189) -/

/-- One bit shifted into the header check register. -/
def crc8Bit (r : BitVec 8) (b : Bool) : BitVec 8 :=
  if r.msb = b then r <<< 1 else (r <<< 1) ^^^ 0x07

/-- The header check: CRC-8, generator x^8 + x^2 + x + 1, initial value 0xFF (R188). -/
def crc8 (l : List Byte) : BitVec 8 := (l.flatMap octetBits).foldl crc8Bit 0xFF

/-- One bit shifted into the payload check register. -/
def crc16Bit (r : BitVec 16) (b : Bool) : BitVec 16 :=
  if r.msb = b then r <<< 1 else (r <<< 1) ^^^ 0x1021

/-- The payload check: CRC-16, generator x^16 + x^12 + x^5 + 1, initial value 0xFFFF (R189). -/
def crc16 (l : List Byte) : BitVec 16 := (l.flatMap octetBits).foldl crc16Bit 0xFFFF

/-! ## The cycle (R187) -/

/-- The octets from kind and epoch to the end of the control field, which the header check covers. -/
def headerBody (c : List Byte) : List Byte := (c.drop 2).take 21

/-- The payload area of a cycle's octets. -/
def payloadOf (c : List Byte) : List Byte := (c.drop 24).take Config.payloadArea

/-- The control field of a cycle's octets. -/
def controlOf (c : List Byte) : List Byte := (c.drop 7).take 16

/-- The cycle count of a cycle's octets. -/
def countOf (c : List Byte) : CycleCount := octetAt c 3 ++ octetAt c 4

/-- The header check of a cycle is good (R88). -/
def headerGood (c : List Byte) : Bool := crc8 (headerBody c) == octetAt c 23

/-- The payload check of a cycle is good (R88). -/
def payloadGood (c : List Byte) : Bool :=
  crc16 (payloadOf c) == (octetAt c 248 ++ octetAt c 249 : BitVec 16)

/-- The cycle is of kind BEACON. -/
def isBeacon (c : List Byte) : Bool := (octetAt c 2).getLsbD 7

/-- The cycle is a beacon with a good header check (R96, R97). -/
def goodBeacon (c : List Byte) : Bool := headerGood c && isBeacon c

/-- The octet of kind, TURNOVER flag and epoch. -/
def kindEpoch (beacon turnover : Bool) (e : Epoch) : Byte :=
  (BitVec.ofBool beacon ++ BitVec.ofBool turnover ++ (0 : BitVec 2) : BitVec 4) ++ e

/-- A whole cycle. The mark's cell values are 1, 1, 1, 1, 0, 0, 0, 0 and 0, 0, 0, 0, 1, 1, 1, 1 (R87), and
the gap is idle cells (log 18). -/
def cycleOctets (beacon turnover : Bool) (e : Epoch) (count : CycleCount) (hop origin : Byte)
    (control payload : List Byte) : List Byte :=
  let body := [kindEpoch beacon turnover e] ++ octets16 count ++ [hop, origin] ++ control
  [0xF0, 0x0F] ++ body ++ [crc8 body] ++ payload ++ octets16 (crc16 payload) ++ zeros 6

end Sys2Proof.Machine
end

