-- ==== Sys2Proof/Machine/Flags.lean ====
section
/-! DEFINITION. Event flags, the service mark, attention, and the status a port shows (chapters 9, 10). -/

namespace Sys2Proof.Machine

/-- The rank of an event kind (R178). -/
def EventKind.rank : EventKind → Fin 7
  | .ringDown => 0 | .streamChange => 1 | .overflow => 2 | .protocol => 3 | .response => 4
  | .delivery => 5 | .ringChange => 6

/-- The port holds a session. -/
def HostPort.attached (h : HostPort) : Bool := h.state == .attached

/-- A raise of a kind: pending, or its repeat flag when it is pending already (R179). -/
def KindState.raise (f : KindState) : KindState :=
  if f.pending then { f with repeated := true } else { f with pending := true }

/-- A raise in an Event Unit, whatever the kind's enable (R179). -/
def EventUnit.raise (e : EventUnit) (k : EventKind) : EventUnit :=
  { e with kinds := e.kinds.modify k.rank KindState.raise }

/-- A raise reaching a port: recorded only while the port is ATTACHED (R179). -/
def HostPort.raise (h : HostPort) (k : EventKind) : HostPort :=
  if h.attached then { h with events := h.events.raise k } else h

/-- A raise made when a condition holds. -/
def HostPort.raiseIf (h : HostPort) (c : Bool) (k : EventKind) : HostPort :=
  if c then h.raise k else h

/-- The service mark: the level on top of the stack, none standing for NONE (R180). -/
def EventUnit.mark (e : EventUnit) : Option Level := e.stack.head?

/-- A level is above a service mark: URGENT above ROUTINE above NONE (R180). -/
def Level.above (l : Level) : Option Level → Bool
  | none => true
  | some .routine => l == .urgent
  | some .urgent => false

/-- The kind of a rank counts for attention and TAKE: pending and enabled (R180, R181). -/
def EventUnit.counts (e : EventUnit) (k : Fin 7) : Bool :=
  (e.kinds.get k).pending && (e.kinds.get k).enabled

/-- The attention line HATN of a port is asserted (R180). -/
def HostPort.attention (h : HostPort) : Bool :=
  h.attached && (List.finRange 7).any fun k =>
    h.events.counts k && (h.events.kinds.get k).level.above h.events.mark

/-- The kind that TAKE chooses: the highest level, and among those the lowest rank (R181). -/
def EventUnit.chosen (e : EventUnit) : Option (Fin 7) :=
  ((List.finRange 7).find? fun k => e.counts k && (e.kinds.get k).level == .urgent).or
    ((List.finRange 7).find? e.counts)

/-- How many kinds are pending and enabled. -/
def EventUnit.waiting (e : EventUnit) : Nat := ((List.finRange 7).filter e.counts).length

/-- The Event Unit after a TAKE that hands out a kind: its flags cleared, its level pushed (R181). -/
def EventUnit.handOut (e : EventUnit) (k : Fin 7) : EventUnit :=
  { e with
    kinds := e.kinds.modify k fun f => { f with pending := false, repeated := false }
    stack := (e.kinds.get k).level :: e.stack }

/-- What a TAKE does and the octets it sends: result, kind as rank, repeat flag, count (R181, R191). -/
def EventUnit.take (e : EventUnit) : EventUnit × List Byte :=
  match e.chosen with
  | none => (e, [1, 0xFF, 0, 0])
  | some k =>
    let again := flagOctet (e.kinds.get k).repeated
    if e.stack.length < Config.stackRoom then
      (e.handOut k, [0, octet k.val, again, octet (e.handOut k).waiting])
    else (e, [2, octet k.val, again, octet e.waiting])

/-- What a DONE does and the octets it sends: result, level removed, depth left (R183, R191; log 12). -/
def EventUnit.serviceDone (e : EventUnit) : EventUnit × List Byte :=
  match e.stack with
  | [] => (e, [1, 0, 0])
  | l :: rest => ({ e with stack := rest }, [0, octet l.code, octet rest.length])

/-- An accepted EVENTSET: all enables, all levels and the threshold at once (R184). -/
def EventUnit.set (e : EventUnit) (enables levels : Byte) (threshold : Nat) : EventUnit :=
  { e with
    kinds := Table.tabulate fun k =>
      { e.kinds.get k with
        enabled := enables.getLsbD k.val
        level := if levels.getLsbD k.val then .urgent else .routine }
    threshold := threshold }

/-- The enable set alone, as Attach writes it (R170). -/
def EventUnit.setEnables (e : EventUnit) (enables : Byte) : EventUnit :=
  { e with kinds := Table.tabulate fun k => { e.kinds.get k with enabled := enables.getLsbD k.val } }

/-- The port status octet, taken at the assertion of the select (R163, R191). -/
def HostPort.statusOctet (h : HostPort) (running : Bool) : Byte :=
  BitVec.ofBool h.attention ++ BitVec.ofBool (decide (Config.requestRoom ≤ h.requests.length)) ++
    BitVec.ofBool (!h.responses.isEmpty) ++ BitVec.ofBool (decide (0 < occupancy h.delivery)) ++
    (BitVec.ofNat 2 h.state.code) ++ BitVec.ofBool running ++ (0 : BitVec 1)

/-- The lease time a status block shows: whole units, rounded down, of what is left of the time last
loaded once `elapsed` has passed; 0 when the timer is stopped (R168, log 4). -/
def leaseShown (timer : Option Nat) (elapsed : Nat) : Nat :=
  match timer with
  | some t => (t - elapsed) / Config.refckPerLeaseUnit
  | none => 0

/-- The status block (R168, R191). -/
def statusBlock (p : Port) (h : HostPort) (elapsed : Nat) (ring : RingState) (brk : Fin 17)
    (epoch : Epoch) : List Byte :=
  [octet p.val, octet h.state.code, octet h.cause.code, flagOctet h.authority, h.leaseSetting,
   octet (leaseShown h.leaseTimer elapsed), octet h.requests.length, octet h.responses.length] ++
  octetsNat (occupancy h.delivery) ++
  [kindSet fun k => (h.events.kinds.get k).pending,
   kindSet fun k => (h.events.kinds.get k).repeated,
   kindSet fun k => (h.events.kinds.get k).enabled,
   octet h.events.stack.length] ++
  padTo 2 (h.events.stack.reverse.map fun l => octet l.code) ++
  octetsNat h.events.threshold ++
  [octet ring.code, octet brk.val, epochOctet epoch]

end Sys2Proof.Machine
end

