-- ==== Sys2Proof/Machine/Plans.lean ====
section
/-! DEFINITION. Presence, page layouts, tap lists, totals and counts of a view (chapters 1 and 2). -/

namespace Sys2Proof.Machine

/-- One view of the whole Stream Table. -/
abbrev ViewTable := Table (Option Descriptor) 48

/-- The stream ids in ascending order. -/
def allStreams : List StreamId := List.finRange 48
/-- The pages in ascending order. -/
def allPages : List Page := List.finRange 8
/-- The ring positions in ascending order. -/
def allPositions : List Pos := List.finRange 15
/-- The ports in ascending order. -/
def allPorts : List Port := List.finRange 4

/-- A stream is present on page k when k modulo divisor equals phase (R4). -/
def Descriptor.present (d : Descriptor) (k : Page) : Bool := k.val % d.divisor == d.phase

/-- The slot length: one status octet and the payload (R4). -/
def Descriptor.slotLength (d : Descriptor) : Nat := d.payload + 1

/-- The position is the stream's source or among its node sinks. -/
def Descriptor.names (d : Descriptor) (p : Pos) : Bool := d.source == .node p || d.sinks.contains p

/-- The receiving ports: the owner when owner receives is yes, then the subscribers; none of a HOST
source (R14, R151). -/
def Descriptor.receivers (d : Descriptor) : List Port :=
  match d.source with
  | .host => []
  | .node _ => (if d.ownerReceives then [d.owner] else []) ++ d.subscribers

/-- The stream has a receiver: a node sink, an owner receives of yes, or a subscriber (R60). -/
def Descriptor.hasReceiver (d : Descriptor) : Bool :=
  !d.sinks.isEmpty || d.ownerReceives || !d.subscribers.isEmpty

/-- The octets a view's entry takes on a page. -/
def shareOn (k : Page) : Option Descriptor → Nat
  | some d => if d.present k then d.slotLength else 0
  | none => 0

/-- The placements of a page from one stream id and offset on, packed in ascending stream id (R26, R27). -/
def layoutFrom (v : ViewTable) (k : Page) : List StreamId → Nat → List Placement
  | [], _ => []
  | id :: ids, at' =>
    match v.get id with
    | some d =>
      if d.present k then
        { stream := id, offset := at', length := d.slotLength } ::
          layoutFrom v k ids (at' + d.slotLength)
      else layoutFrom v k ids at'
    | none => layoutFrom v k ids at'

/-- The layout of one page of a view (R26). -/
def layoutOf (v : ViewTable) (k : Page) : List Placement := layoutFrom v k allStreams 0

/-- The tap that a placement gives a position: WRITE for the source, READ for a node sink, one at most
(R30, R35). -/
def tapFor (v : ViewTable) (p : Pos) (k : Page) (pl : Placement) : Option Tap :=
  match v.get pl.stream with
  | some d =>
    if d.source = .node p then
      some { page := k, role := .write, offset := pl.offset, length := pl.length, stream := pl.stream }
    else if p ∈ d.sinks then
      some { page := k, role := .read, offset := pl.offset, length := pl.length, stream := pl.stream }
    else none
  | none => none

/-- The tap list of a position, by page and then by offset (R31). -/
def tapListOf (v : ViewTable) (layouts : Table (List Placement) 8) (p : Pos) : List Tap :=
  allPages.flatMap fun k => (layouts.get k).filterMap (tapFor v p k)

/-- The plan derived from a view, labelled with an epoch (R25 to R31). -/
def compile (v : ViewTable) (e : Epoch) : Plan :=
  let layouts := Table.tabulate (layoutOf v)
  { epoch := e, layouts := layouts, taps := Table.tabulate (tapListOf v layouts) }

/-- The page total of a view (R28). -/
def pageTotal (v : ViewTable) (k : Page) : Nat := (allStreams.map fun id => shareOn k (v.get id)).sum

/-- The octets that a port's own streams take on a page of a view (R16, R37). -/
def usage (v : ViewTable) (p : Port) (k : Page) : Nat :=
  (allStreams.map fun id => shareOn k ((v.get id).filter fun d => d.owner == p)).sum

/-- The taps that one entry gives a position: 8 divided by the divisor when it names it (R31). -/
def tapShare (p : Pos) : Option Descriptor → Nat
  | some d => if d.names p then 8 / d.divisor else 0
  | none => 0

/-- The tap count of a position in a view (R31). -/
def tapCount (v : ViewTable) (p : Pos) : Nat := (allStreams.map fun id => tapShare p (v.get id)).sum

/-- The number of parts that carry a tap list: three taps a part, and at least one part (R73, R123). -/
def partCount (taps : List Tap) : Nat := max 1 ((taps.length + 2) / 3)

/-- The taps of part `i`: taps 3i − 2 to 3i of the list (R73). -/
def partTaps (taps : List Tap) (i : Nat) : List Tap := (taps.drop (3 * (i - 1))).take 3

/-- A position put into an ascending list. -/
def insertPos (p : Pos) : List Pos → List Pos
  | [] => [p]
  | q :: qs => if p ≤ q then p :: q :: qs else q :: insertPos p qs

/-- Positions in ascending order (R2, R8). -/
def sortPositions : List Pos → List Pos
  | [] => []
  | p :: ps => insertPos p (sortPositions ps)

/-- The delivery table of a view: its node-sourced streams that have receiving ports (R151). -/
def deliveryTableOf (v : ViewTable) : DeliveryTable :=
  allStreams.filterMap fun id =>
    match v.get id with
    | some d => if d.receivers.isEmpty then none else some (id, d.receivers)
    | none => none

/-- The ports listed for a stream in a delivery table. -/
def listedPorts (t : DeliveryTable) (id : StreamId) : List Port := (t.lookup id).getD []

/-- The page of a cycle: its count modulo 8 (R4, R89). -/
def pageOf (c : CycleCount) : Page := ⟨c.toNat % 8, Nat.mod_lt _ (by decide)⟩

end Sys2Proof.Machine
end

