-- ==== Sys2Proof/Machine/Ops.lean ====
section
/-! DEFINITION. The operations that the commands share: on ports, notices, the batch, exchanges, nodes,
the turnover, the ring state, sessions and resets. -/

namespace Sys2Proof.Machine

/-! ## Reading and changing parts of the state -/

/-- One host port. -/
def State.port (s : State) (p : Port) : HostPort := s.ports.get p

/-- One host port changed. -/
def State.modPort (s : State) (p : Port) (f : HostPort → HostPort) : State :=
  { s with ports := s.ports.modify p f }

/-- Every host port changed. -/
def State.mapPorts (s : State) (f : HostPort → HostPort) : State := { s with ports := s.ports.map f }

/-- One Stream Table entry. -/
def State.entry (s : State) (id : StreamId) : Entry := s.streams.get id

/-- The staged view of every entry (R1). -/
def State.stagedView (s : State) : ViewTable := s.streams.map Entry.staged
/-- The outgoing view of every entry (R1). -/
def State.outgoingView (s : State) : ViewTable := s.streams.map Entry.outgoing
/-- The in-force view of every entry (R1). -/
def State.inForceView (s : State) : ViewTable := s.streams.map Entry.inForce

/-- One Node Table entry. -/
def State.node (s : State) (p : Pos) : NodeEntry := s.nodes.entries.get p

/-- The ring is RUNNING. -/
def State.running (s : State) : Bool := s.ring.state == .running

/-- A turnover is in flight (R66). -/
def Turnover.inFlight (t : Turnover) : Bool := t.state == .distributing || t.state == .switching

/-- The state of an entry (R9). -/
def Entry.state (e : Entry) : EntryState :=
  match e.staged, e.inForce with
  | none, none => if e.outgoing.isNone then .free else .closing
  | none, some _ => .closing
  | some _, none => .opening
  | some d, some d' => if d = d' then .live else .changing

/-- All three views are absent (R10). -/
def Entry.isFree (e : Entry) : Bool := e.staged.isNone && e.outgoing.isNone && e.inForce.isNone

/-! ## Notices and answers (R41, R166) -/

/-- The response queue has a free entry: its entries and its reservation number fewer than 8 (R41). -/
def HostPort.hasFree (h : HostPort) : Bool :=
  decide (h.responses.length + (if h.reserved then 1 else 0) < Config.responseRoom)

/-- A notice of the three kinds that raise STREAM_CHANGE when they are placed (R178). -/
def Notice.ofStream : Notice → Bool
  | .streamClosed _ _ _ | .sinkRemoved _ _ | .streamGained _ _ => true
  | .settled _ _ | .ringState _ _ _ | .nodeState _ _ _ _ _ => false

/-- An entry at the tail of the response queue, which raises RESPONSE (R166). -/
def HostPort.append (h : HostPort) (e : ResponseEntry) : HostPort :=
  ({ h with responses := h.responses ++ [e] } : HostPort).raise .response

/-- A notice posted to a port: nothing while it is not ATTACHED; placed when an entry is free, and dropped
with OVERFLOW otherwise (R166, R178). -/
def HostPort.post (h : HostPort) (n : Notice) : HostPort :=
  if h.attached then
    if h.hasFree then (h.append (.notice n)).raiseIf n.ofStream .streamChange else h.raise .overflow
  else h

/-- A NODE_STATE notice; RING_CHANGE is raised whether or not it was placed (R129). -/
def HostPort.postNode (h : HostPort) (n : Notice) : HostPort := (h.post n).raise .ringChange

/-- Notices posted one after another (R62). -/
def State.postAll (s : State) (l : List (Port × Notice)) : State :=
  { s with ports := l.foldl (fun ps x => ps.modify x.1 fun h => h.post x.2) s.ports }

/-- The answer of a request put in the entry reserved for it, which ends the reservation (R41, R48). -/
def HostPort.placeAnswer (h : HostPort) (tag kind : Byte) (r : Reply) : HostPort :=
  ({ h with reserved := false } : HostPort).append (.answer tag kind r)

/-! ## The lease (R171) -/

/-- The lease timer loaded with the setting, or stopped for a setting of 0. -/
def HostPort.loadLease (h : HostPort) : HostPort :=
  { h with
    leaseTimer :=
      if h.leaseSetting = 0 then none else some (h.leaseSetting.toNat * Config.refckPerLeaseUnit) }

/-- The completion of a transaction loads the timer of an ATTACHED port (R169, R171). -/
def HostPort.touchLease (h : HostPort) : HostPort := if h.attached then h.loadLease else h

/-! ## The batch (R19, R67) -/

/-- What the Turnover Controller does when the batch becomes non-empty (R67). -/
def Turnover.startGathering (t : Turnover) (running : Bool) (window : Nat) : Turnover :=
  match t.state with
  | .idle =>
    if window = 0 ∧ running = false then { t with state := .waiting, gather := 0 }
    else { t with state := .gathering, gather := window }
  | .gathering | .waiting | .distributing | .switching => t

/-- The batch holds an edit: it is non-empty, and the Turnover Controller acts when it was empty before
(R19, R67). -/
def State.noteBatch (s : State) : State :=
  { s with
    admission := { s.admission with batchEmpty := false }
    turnover :=
      if s.admission.batchEmpty then s.turnover.startGathering s.running s.ring.gatherWindow
      else s.turnover }

/-- The ticket after a ticket: 65535 is followed by 1 (R18). -/
def nextTicket (t : Ticket) : Ticket := if t = 0xFFFF then 1 else t + 1

/-! ## The internal edit list (R57) -/

/-- Two entries are for the same port or for the same position (R57). -/
def InternalEntry.sameSubject : InternalEntry → InternalEntry → Bool
  | .port p, .port q => p == q
  | .port _, _ => false
  | .lost p, .lost q | .lost p, .changed q _ => p == q
  | .lost _, .port _ => false
  | .changed p _, .lost q | .changed p _, .changed q _ => p == q
  | .changed _ _, .port _ => false

/-- An entry queued, unless one for the same port or position waits already (R57). -/
def enqueue (l : List InternalEntry) (e : InternalEntry) : List InternalEntry :=
  if l.any e.sameSubject then l else l ++ [e]

/-- An entry queued in the internal edit list. -/
def State.queueInternal (s : State) (e : InternalEntry) : State :=
  { s with admission := { s.admission with internal := enqueue s.admission.internal e } }

/-! ## Exchanges (R117) -/

/-- The outstanding exchange belongs to one of the users named. -/
def Control.drops (c : Control) (which : User → Bool) : Bool :=
  match c.exchange with
  | some x => which x.user
  | none => false

/-- The record of the cycle that carries a dropped attempt no longer awaits a reply (R117). -/
def CycleRecord.disown (r : CycleRecord) (a : Option Attempt) : CycleRecord :=
  match a with
  | some a => if r.count = a.count then { r with awaits := false } else r
  | none => r

/-- The outstanding exchange dropped, without a conclusion, when it belongs to one of the users named
(R117). -/
def State.dropExchange (s : State) (which : User → Bool) : State :=
  { s with
    control :=
      if s.control.drops which then { s.control with exchange := none, attempt := none } else s.control
    ring :=
      { s.ring with
        sent :=
          if s.control.drops which then s.ring.sent.map fun r => r.disown s.control.attempt
          else s.ring.sent } }

/-! ## Node Table changes (R71, R128, R129) -/

/-- An entry made STALE, everything else kept (R77, R130, R142). -/
def NodeEntry.toStale (e : NodeEntry) : NodeEntry := { e with state := .stale }

/-- The entry holds the epoch guard: STALE with the in-force epoch + 1 recorded (R70). -/
def NodeEntry.guards (e : NodeEntry) (epoch : Epoch) : Bool :=
  e.state == .stale && e.held == some (epoch + 1)

/-- An entry changed. A change of state or of recorded held epoch of a node that held the epoch guard,
while the ring is RUNNING, makes a WAITING Turnover Controller claim its freeze again (R71). -/
def State.updateNode (s : State) (p : Pos) (f : NodeEntry → NodeEntry) : State :=
  let old := s.node p
  let new := f old
  { s with
    nodes := { s.nodes with entries := s.nodes.entries.set p new }
    turnover :=
      { s.turnover with
        claim := s.turnover.claim ||
          (s.running && s.turnover.state == .waiting && old.guards s.turnover.epoch &&
            (old.state != new.state || old.held != new.held)) } }

/-- An entry changed, with the NODE_STATE notices that a change of state posts while the ring is RUNNING
(R129). -/
def State.changeNode (s : State) (p : Pos) (f : NodeEntry → NodeEntry) (cause : NodeCause) : State :=
  let old := s.node p
  let new := f old
  let told := s.running && old.state != new.state
  let s := s.updateNode p f
  { s with
    ports :=
      if told then
        s.ports.map fun h => h.postNode (.nodeState p new.state new.held new.failures cause)
      else s.ports }

/-- Several entries changed, in the order of the list. -/
def State.changeNodes (s : State) (ps : List Pos) (f : NodeEntry → NodeEntry) (cause : NodeCause) :
    State :=
  ps.foldl (fun s p => s.changeNode p f cause) s

/-! ## Abandon (R83) -/

/-- An entry after an abandon: the outgoing view absent, membership set when the staged view is not equal
to the in-force view (R6, R19). -/
def Entry.abandoned (e : Entry) : Entry :=
  { e with outgoing := none, member := e.member || e.staged != e.inForce }

/-- A port's batch ticket after an abandon (R19). -/
def mergedTicket (batch out : Ticket) : Ticket := if batch = 0 then out else batch

/-- The turnover in flight, if there is one, is abandoned (R83). -/
def State.abandon (s : State) : State :=
  if s.turnover.inFlight then
    let s := s.dropExchange (· == .distribution)
    { s with
      streams := s.streams.map Entry.abandoned
      plans := { s.plans with outgoing := none }
      admission :=
        { s.admission with
          batchEmpty := false
          batchTickets := Table.tabulate fun p =>
            mergedTicket (s.admission.batchTickets.get p) (s.turnover.outTickets.get p) }
      turnover :=
        { s.turnover with
          state := .waiting, target := none, work := [], flush := false, claim := false
          outTickets := Table.fill 0 } }
  else s

/-! ## Ring states (R102, R105) -/

/-- The states whose entry raises RING_DOWN (R105). -/
def RingState.down (st : RingState) : Bool := st == .broken || st == .halted || st == .off

/-- The Ring Engine on entering a state (R98, R99, R102, R104). -/
def Ring.enter (r : Ring) (st : RingState) : Ring :=
  match st with
  | .running => { r with state := .running, misses := 0, shape := 0, breakPos := 0 }
  | .broken => { r with state := .broken, heal := 0, healOdd := false }
  | .off => { r with state := .off }
  | .quieting => { r with state := .quieting }
  | .numbering => { r with state := .numbering }
  | .identifying => { r with state := .identifying }
  | .halted => { r with state := .halted }

/-- What a change of ring state posts and raises at a port (R105). -/
def HostPort.ringChanged (h : HostPort) (st : RingState) (brk : Fin 17) (reason : RingReason) : HostPort :=
  ((h.post (.ringState st brk reason)).raiseIf st.down .ringDown).raiseIf (st == .running) .ringChange

/-- The ring enters a state: RING_STATE notices, events, and the freeze claim that a WAITING controller
makes when the ring enters RUNNING (R71, R102, R105). -/
def State.enterRing (s : State) (st : RingState) (reason : RingReason) : State :=
  let r := s.ring.enter st
  { s with
    ring := r
    ports := s.ports.map fun h => h.ringChanged st r.breakPos reason
    turnover :=
      { s.turnover with
        claim := s.turnover.claim || (st == .running && s.turnover.state == .waiting) } }

/-- The positions that a verification round has not yet concluded (R142). -/
def Procedure.left : Procedure → List Pos
  | .verifying l => l
  | .idle | .numbering _ | .identifying _ | .reconciling => []

/-- A verification round ends because the ring leaves RUNNING for BROKEN or HALTED: positions not yet
concluded that are still READY become STALE (R142). -/
def State.failVerification (s : State) : State :=
  s.changeNodes (s.nodes.procedure.left.filter fun p => (s.node p).state == .ready)
    NodeEntry.toStale .verification

/-- What ends when the ring leaves RUNNING: the verification round and refresh with their exchanges, and a
turnover in flight (R83, R117, R125, R142). `failing` tells BROKEN and HALTED from QUIETING and NUMBERING. -/
def State.leaveRunning (s : State) (failing : Bool) : State :=
  if s.running then
    let s := if failing then s.failVerification else s
    let s := s.dropExchange fun u => u == .verification || u == .refresh
    let s := { s with control := { s.control with refresh := none }
                      nodes := { s.nodes with procedure := .idle } }
    s.abandon
  else s

/-- The ring halts (R102). -/
def State.halt (s : State) (reason : RingReason) : State := (s.leaveRunning true).enterRing .halted reason

/-! ## The completion of transactions (chapters 8, 9 and 10) -/

/-- The framing of the octets clocked in by a REQUEST is sound: the length octet is there, in range, and
names as many octets as came (R164). -/
def framed (taken : List Byte) : Bool :=
  match taken with
  | [] => false
  | len :: _ => decide (3 ≤ len.toNat ∧ len.toNat ≤ 32) && taken.length == len.toNat

/-- A REQUEST decided at its completion: the frame is appended, or discarded with PROTOCOL (R164). -/
def HostPort.takeFrame (h : HostPort) (taken : List Byte) : HostPort :=
  if framed taken && decide (h.requests.length < Config.requestRoom) then
    { h with requests := h.requests ++ [taken] }
  else h.raise .protocol

/-- An EVENTSET's octets are as many as the layout calls for and in range (R184, R191). -/
def eventsetGood (taken : List Byte) : Bool :=
  taken.length == 4 && !(octetAt taken 0).getLsbD 7 && !(octetAt taken 1).getLsbD 7 &&
    decide (1 ≤ 256 * numAt taken 2 + numAt taken 3 ∧
      256 * numAt taken 2 + numAt taken 3 ≤ Config.deliveryRoom)

/-- An EVENTSET judged at its completion (R184). -/
def HostPort.takeEventset (h : HostPort) (taken : List Byte) : HostPort :=
  if h.attached then
    if eventsetGood taken then
      { h with
        events := h.events.set (octetAt taken 0) (octetAt taken 1) (256 * numAt taken 2 + numAt taken 3) }
    else h.raise .protocol
  else h

/-- The judgement of a post (R145). -/
inductive PostOutcome where
  | dropped
  | rejected
  | accepted (id : StreamId)
deriving DecidableEq, Repr

/-- A POST judged at its completion by the in-force view, in the order of R145. -/
def State.judgePost (s : State) (p : Port) (taken : List Byte) : PostOutcome :=
  if (s.port p).attached then
    match taken with
    | [] => .rejected
    | b :: payload =>
      match streamOf b.toNat with
      | none => .rejected
      | some id =>
        match (s.entry id).inForce with
        | none => .rejected
        | some d =>
          if d.source = .host ∧ d.owner = p ∧ payload.length = d.payload then .accepted id else .rejected
  else .dropped

/-- A POST taken at its completion: PROTOCOL for a rejected one (R145), the sample in the post buffer as
NEW for an accepted one (R146). -/
def State.takePost (s : State) (p : Port) (taken : List Byte) : State :=
  { s with
    ports := s.ports.modify p fun h => h.raiseIf (s.judgePost p taken == .rejected) .protocol
    mover :=
      { s.mover with
        posts := match s.judgePost p taken with
          | .accepted id => s.mover.posts.set id (.fresh taken.tail)
          | .dropped | .rejected => s.mover.posts } }

/-- What the completion of a transaction does at its own port, POST apart (R162, R164, R171, R184). -/
def HostPort.finish (h : HostPort) (t : Txn) : HostPort :=
  (match t.kind with
    | some .request => h.takeFrame t.taken
    | some .eventset => h.takeEventset t.taken
    | some .unknown => h.raise .protocol
    | some .post | some .fetch | some .drain | some .status | some .take | some .serviceDone
    | none => h).touchLease

/-- The effect of a completed transaction. -/
def State.finish (s : State) (p : Port) (t : Txn) : State :=
  (if t.kind = some .post then s.takePost p t.taken else s).modPort p fun h => h.finish t

/-! ## Session end and lapse (R43, R159, R172, R173) -/

/-- A port's queues and Event Unit at its session end; an item being clocked out goes on, and its
completion removes nothing further (R158, R167, R172). -/
def HostPort.endSession (h : HostPort) : HostPort :=
  { h with
    requests := [], responses := [], events := EventUnit.cleared, delivery := []
    gaps := Table.fill 0
    txn := h.txn.map fun t => { t with removes := false } }

/-- The stream's in-force owner is the port. -/
def Entry.ownedInForce (e : Entry) (p : Port) : Bool :=
  match e.inForce with
  | some d => d.owner == p
  | none => false

/-- What a session end does, but for the port state and the lease: the port's queues and events, the post
buffers of the streams it owns in force, its tickets, and its port entry (R43, R147, R159). -/
def State.endSession (s : State) (p : Port) : State :=
  { s with
    ports := s.ports.modify p HostPort.endSession
    mover :=
      { s.mover with
        posts := Table.tabulate fun id =>
          if (s.entry id).ownedInForce p then .empty else s.mover.posts.get id }
    admission :=
      { s.admission with
        batchTickets := s.admission.batchTickets.set p 0
        internal := enqueue s.admission.internal (.port p) }
    turnover := { s.turnover with outTickets := s.turnover.outTickets.set p 0 } }

/-- The transactions completed while the lapse was due take their effect, in their order (R171). -/
def State.finishEnded (s : State) (p : Port) : State :=
  (s.port p).ended.foldl (fun s t => s.finish p t) (s.modPort p fun h => { h with ended := [] })

/-- A due lapse carried out: the session ends, or nothing but the mark is cleared when the port is no
longer ATTACHED; the transactions completed meanwhile follow (R171, R172). -/
def State.lapse (s : State) (p : Port) : State :=
  (if (s.port p).attached then
    (s.endSession p).modPort p fun h => { h with state := .lapsed, lapseDue := false, leaseTimer := none }
  else s.modPort p fun h => { h with lapseDue := false }).finishEnded p

/-- The lapse of a port is carried out if it is due. -/
def State.settleLapse (s : State) (p : Port) : State := if (s.port p).lapseDue then s.lapse p else s

/-- An item of the port is in processing (R172). -/
def State.processingOf (s : State) (p : Port) : Bool :=
  match s.admission.processing with
  | some (.frame q _) => p == q
  | some (.internal _) | none => false

/-- A lapse that is due is carried out once no item of the port is in processing (R172). -/
def State.grantLapse (s : State) (p : Port) : State := if s.processingOf p then s else s.settleLapse p

/-- Every lapse that is due and waits for no item in processing carried out (R43, R172). In every run at most
one lapse is due, that of the port whose item is in processing. For a state in which several are due no rule
gives an order, and they go by ascending port (DESIGN CHOICE, log 5). -/
def State.settleLapses (s : State) : State :=
  allPorts.foldl State.grantLapse s

/-! ## Resets (R176) -/

/-- Every piece of state at its value after reset. The straps name the authority port (R174); a transaction
in progress is voided, and its select stays asserted (R176); the model's own queue and counter are no
state of the part. -/
def State.resetWith (s : State) (cause : ResetCause) (straps : BitVec 2) (low : Bool) : State :=
  { State.reset with
    ports := Table.tabulate fun p =>
      { HostPort.reset cause (straps.toNat == p.val) with
        heldOver := (s.port p).heldOver || (s.port p).txn.isSome }
    nresetLow := low
    freeCount := s.freeCount
    pending := s.pending }

end Sys2Proof.Machine
end

