-- ==== Sys2Proof/Machine/Admission.lean ====
section
/-! DEFINITION. The Admission Unit: its arbiter, its items, the general checks, and the edit requests
(chapter 3). -/

namespace Sys2Proof.Machine

/-! ## The arbiter (R40) -/

/-- The order in which ports are considered: from the port after the one last served, round to it (R40). -/
def roundRobin (last : Port) : List Port := [last + 1, last + 2, last + 3, last]

/-- A port is eligible: a frame waits and its response queue has a free entry (R40). -/
def HostPort.eligible (h : HostPort) : Bool := !h.requests.isEmpty && h.hasFree

/-- No lapse is due at any port. -/
def State.noLapseDue (s : State) : Bool := allPorts.all fun p => !(s.port p).lapseDue

/-- The request frame that the arbiter would take now, and its port. None while an item is in processing
or an internal entry waits (R39, R40), nor while a lapse is due, which is granted first (R43). -/
def State.pick (s : State) : Option (Port × List Byte) :=
  if s.admission.processing.isNone && s.admission.internal.isEmpty && s.noLapseDue then
    match (roundRobin s.admission.lastServed).find? fun p => (s.port p).eligible with
    | some p => (s.port p).requests.head?.map fun f => (p, f)
    | none => none
  else none

/-! ## One item (R39, R41, R48) -/

/-- A frame taken as an item: it leaves its queue, an entry is reserved for the answer, and the arbiter
position becomes its port (R39, R40, R41). -/
def State.beginItem (s : State) (p : Port) (f : List Byte) : State :=
  { s with
    ports := s.ports.modify p fun h => { h with requests := h.requests.tail, reserved := true }
    admission := { s.admission with lastServed := p, processing := some (.frame p f) } }

/-- The answer placed, which ends the item (R39, R48). -/
def State.finishItem (s : State) (p : Port) (f : List Byte) (r : Reply) : State :=
  { s with
    ports := s.ports.modify p fun h => h.placeAnswer (frameTag f) (frameKindOctet f) r
    admission := { s.admission with processing := none } }

/-- The effect of a request on the state, and its answer if it has one. -/
abbrev Effect := State → State × Option Reply

/-- One request processed whole: taken, acted on, answered after the notices of its effect (R39, R41; log
20). An accepted Device Reset has no answer (R48). -/
def State.runItem (s : State) (p : Port) (f : List Byte) (act : Effect) : State :=
  match act (s.beginItem p f) with
  | (s', some r) => s'.finishItem p f r
  | (s', none) => s'

/-- A refusal: nothing changes but the answer (R45, R48). -/
def refuse (r : Reason) (detail : Nat := 0) : Effect := fun s => (s, some (.refused r detail))

/-- Steps 1 and 2 of the check order before the rest: ATTACHED, from which Attach is exempt, and well
formed (R45, R47). -/
def checked (k : RequestKind) (p : Port) (f : List Byte) (act : Effect) : Effect := fun s =>
  if k ≠ .attach ∧ (s.port p).attached = false then refuse .notAttached 0 s
  else if frameWellFormed k f then act s
  else refuse .malformed 0 s

/-- The frame the arbiter would take, taken and refused when its kind is no known kind (R46, R47; log 3). -/
def State.takeUnknown (s : State) : State :=
  match s.pick with
  | some (p, f) =>
    if frameKind f = none then
      s.runItem p f fun s =>
        if (s.port p).attached then refuse .malformed 0 s else refuse .notAttached 0 s
    else s
  | none => s

/-- Frames of unknown kind that stand ahead of the next known one, taken one after another; the four
queues hold sixteen frames (R161; log 3). -/
def State.takeUnknowns : Nat → State → State
  | 0, s => s
  | n + 1, s => State.takeUnknowns n s.takeUnknown

/-- The frames of unknown kind ahead of the next item taken. -/
def State.settleUnknown (s : State) : State := State.takeUnknowns 16 s

/-- The Admission Unit takes a request of kind `k`, when that is what the arbiter chooses; otherwise the
event does not happen (log 1). A lapse that is due is granted first, and its port entry then goes ahead of
every request (R40, R43). -/
def State.takeRequest (s : State) (k : RequestKind) (act : Port → List Byte → Effect) : State :=
  let s := s.settleLapses.settleUnknown
  match s.pick with
  | some (p, f) => if frameKind f = some k then s.runItem p f (checked k p f (act p f)) else s
  | none => s

/-! ## Edits (R5, R18, R19, R45) -/

/-- A refusal's reason and detail (R48). -/
abbrev Denial := Reason × Nat

/-- An edit that passed its checks: the entry, its new staged view, and the notices it posts. -/
structure Edit where
  id      : StreamId
  staged  : Option Descriptor
  notices : List (Port × Notice)
deriving DecidableEq, Repr

/-- An accepted edit: the staged view, membership, the ticket, the batch, the notices, the answer ACCEPTED
(R18, R19, R48). -/
def State.applyEdit (s : State) (p : Port) (e : Edit) : State × Option Reply :=
  let t := s.admission.ticket
  let s' := { s with
    streams := s.streams.modify e.id fun x => { x with staged := e.staged, member := true }
    admission :=
      { s.admission with
        ticket := nextTicket t
        batchTickets := s.admission.batchTickets.set p t } }
  (s'.noteBatch.postAll e.notices, some (.accepted e.id t))

/-- An edit request: judged by the state as it stands when it is taken, then refused or applied (R39, R44,
R45). -/
def editing (judge : Port → List Byte → State → Except Denial Edit) (p : Port) (f : List Byte) :
    Effect := fun s =>
  match judge p f s with
  | .error (r, d) => refuse r d s
  | .ok e => s.applyEdit p e

/-- Open, Alter, Subscribe and Handover pass step 5 in RUNNING and BROKEN (R46, R101). -/
def RingState.allowsEdits (st : RingState) : Bool := st == .running || st == .broken

/-- Close and Unsubscribe pass step 5 in every state but QUIETING and OFF (R46, R101). -/
def RingState.allowsLeaving (st : RingState) : Bool := st != .quieting && st != .off

/-! ### Ranges (step 3) -/

/-- The six alterable fields as a frame of Open or Alter gives them (R49, R51, R192). -/
structure StreamFields where
  sinks         : List Pos
  ownerReceives : Bool
  payload       : Nat
  divisor       : Nat
  phase         : Nat
  policy        : Policy
deriving DecidableEq, Repr

/-- The six fields, when every one is in range: at most four distinct sinks, payload size 1 to 32, divisor
1, 2, 4 or 8, phase below the divisor, and codes that name values (R2, R49). -/
def streamFieldsOf (f : List Byte) : Option StreamFields :=
  match positionsOf (f.drop 10), flagOf (numAt f 4), policyOf (numAt f 8) with
  | some sinks, some receives, some policy =>
    if sinks.length ≤ 4 ∧ sinks.Nodup ∧ 1 ≤ numAt f 5 ∧ numAt f 5 ≤ 32 ∧
        numAt f 6 ∈ [1, 2, 4, 8] ∧ numAt f 7 < numAt f 6 then
      some { sinks := sortPositions sinks, ownerReceives := receives, payload := numAt f 5,
             divisor := numAt f 6, phase := numAt f 7, policy := policy }
    else none
  | _, _, _ => none

/-- The parameters of an Open agree with each other: a NODE source is no sink and some receiver is named; a
HOST source has a sink and does not deliver to its owner (R3, R49). -/
def openAgrees (src : Source) (x : StreamFields) : Bool :=
  match src with
  | .host => !x.sinks.isEmpty && !x.ownerReceives
  | .node p => !x.sinks.contains p && (!x.sinks.isEmpty || x.ownerReceives)

/-- The absence policy stored: VOID for a NODE source (R3). -/
def storedPolicy (src : Source) (policy : Policy) : Policy :=
  match src with
  | .host => policy
  | .node _ => .void

/-- The descriptor an Open writes (R50). -/
def openedDescriptor (p : Port) (src : Source) (x : StreamFields) : Descriptor :=
  { owner := p, source := src, sinks := x.sinks, ownerReceives := x.ownerReceives, subscribers := [],
    payload := x.payload, divisor := x.divisor, phase := x.phase, policy := storedPolicy src x.policy }

/-- The descriptor an Alter writes (R52). -/
def alteredDescriptor (d : Descriptor) (x : StreamFields) : Descriptor :=
  { d with
    sinks := x.sinks, ownerReceives := x.ownerReceives, payload := x.payload, divisor := x.divisor,
    phase := x.phase, policy := storedPolicy d.source x.policy }

/-- An altered descriptor agrees with its stored source and subscribers (R51). -/
def alterAgrees (d : Descriptor) (x : StreamFields) : Bool :=
  match d.source with
  | .host => !x.sinks.isEmpty && !x.ownerReceives
  | .node p =>
    !x.sinks.contains p && (!x.sinks.isEmpty || x.ownerReceives || !d.subscribers.isEmpty)

/-! ### Steps 7 and 8 -/

/-- The positions a descriptor names, ascending. -/
def Descriptor.positions (d : Descriptor) : List Pos := allPositions.filter d.names

/-- Step 7: the lowest named position that is not READY (R45, R48). -/
def State.unready (s : State) (d : Descriptor) : Option Pos :=
  d.positions.find? fun p => (s.node p).state != .ready

/-- The lowest page whose total exceeds 224 (R28, R48). -/
def fullPage (v : ViewTable) : Option Page :=
  allPages.find? fun k => decide (Config.payloadArea < pageTotal v k)

/-- The lowest page on which a port's usage exceeds its quota (R16, R48). -/
def overPage (v : ViewTable) (p : Port) (quota : Nat) : Option Page :=
  allPages.find? fun k => decide (quota < usage v p k)

/-- The tap capacity a node reported, 0 when no identity is held (R31, R126). -/
def NodeEntry.capacity (e : NodeEntry) : Nat :=
  match e.identity with
  | some i => i.capacity
  | none => 0

/-- The lowest named position whose tap count exceeds its capacity (R31, R36, R48). -/
def State.overTapped (s : State) (v : ViewTable) (d : Descriptor) : Option Pos :=
  d.positions.find? fun p => decide ((s.node p).capacity < tapCount v p)

/-- Step 8 past the free entry: PAGE_FULL, then OVER_QUOTA, then TAPS_EXHAUSTED, on the edited staged view
(R36, R45). -/
def State.measure (s : State) (v : ViewTable) (p : Port) (d : Descriptor) : Except Denial Unit :=
  match fullPage v with
  | some k => .error (.pageFull, k.val)
  | none =>
    match overPage v p (s.admission.quotas.get p) with
    | some k => .error (.overQuota, k.val)
    | none =>
      match s.overTapped v d with
      | some q => .error (.tapsExhausted, posNum q)
      | none => .ok ()

/-- The lowest FREE entry (R10). -/
def State.freeEntry (s : State) : Option StreamId := allStreams.find? fun id => (s.entry id).isFree

/-! ### The six judgements -/

/-- Open (R49, R50). -/
def judgeOpen (p : Port) (f : List Byte) (s : State) : Except Denial Edit :=
  match sourceOf (numAt f 3), streamFieldsOf f with
  | some src, some x =>
    if openAgrees src x then
      if s.ring.state.allowsEdits then
        let d := openedDescriptor p src x
        match s.unready d with
        | some q => .error (.nodeUnavailable, posNum q)
        | none =>
          match s.freeEntry with
          | none => .error (.noFreeEntry, 0)
          | some id =>
            match s.measure (s.stagedView.set id (some d)) p d with
            | .error e => .error e
            | .ok () => .ok { id := id, staged := some d, notices := [] }
      else .error (.ringState, 0)
    else .error (.badArgument, 0)
  | _, _ => .error (.badArgument, 0)

/-- Alter (R51, R52). -/
def judgeAlter (p : Port) (f : List Byte) (s : State) : Except Denial Edit :=
  match streamOf (numAt f 3), streamFieldsOf f with
  | some id, some x =>
    if s.ring.state.allowsEdits then
      match (s.entry id).staged with
      | none => .error (.noSuchStream, 0)
      | some d =>
        if d.owner ≠ p then .error (.notOwner, 0)
        else if alterAgrees d x then
          let d' := alteredDescriptor d x
          match s.unready d' with
          | some q => .error (.nodeUnavailable, posNum q)
          | none =>
            match s.measure (s.stagedView.set id (some d')) p d' with
            | .error e => .error e
            | .ok () => .ok { id := id, staged := some d', notices := [] }
        else .error (.badArgument, 0)
    else .error (.ringState, 0)
  | _, _ => .error (.badArgument, 0)

/-- Close (R53): a STREAM_CLOSED notice to each subscriber, in list order. -/
def judgeClose (p : Port) (f : List Byte) (s : State) : Except Denial Edit :=
  match streamOf (numAt f 3) with
  | none => .error (.badArgument, 0)
  | some id =>
    if s.ring.state.allowsLeaving then
      match (s.entry id).staged with
      | none => .error (.noSuchStream, 0)
      | some d =>
        if d.owner ≠ p then .error (.notOwner, 0)
        else
          .ok { id := id, staged := none
                notices := d.subscribers.map fun q => (q, .streamClosed id .ownerClosed none) }
    else .error (.ringState, 0)

/-- Subscribe (R54). -/
def judgeSubscribe (p : Port) (f : List Byte) (s : State) : Except Denial Edit :=
  match streamOf (numAt f 3) with
  | none => .error (.badArgument, 0)
  | some id =>
    if s.ring.state.allowsEdits then
      match (s.entry id).staged with
      | none => .error (.noSuchStream, 0)
      | some d =>
        if d.owner = p ∨ p ∈ d.subscribers then .error (.already, 0)
        else if d.source = .host ∨ 3 ≤ d.subscribers.length then .error (.badArgument, 0)
        else
          .ok { id := id, staged := some { d with subscribers := d.subscribers ++ [p] }, notices := [] }
    else .error (.ringState, 0)

/-- Unsubscribe (R55). -/
def judgeUnsubscribe (p : Port) (f : List Byte) (s : State) : Except Denial Edit :=
  match streamOf (numAt f 3) with
  | none => .error (.badArgument, 0)
  | some id =>
    if s.ring.state.allowsLeaving then
      match (s.entry id).staged with
      | none => .error (.noSuchStream, 0)
      | some d =>
        if p ∈ d.subscribers then
          .ok { id := id, staged := some { d with subscribers := d.subscribers.erase p }, notices := [] }
        else .error (.notSubscriber, 0)
    else .error (.ringState, 0)

/-- The descriptor passed to a subscriber: it leaves the list and becomes owner, and it receives (R14, R56,
R59). -/
def Descriptor.passTo (d : Descriptor) (q : Port) : Descriptor :=
  { d with owner := q, ownerReceives := true, subscribers := d.subscribers.erase q }

/-- Handover (R56). -/
def judgeHandover (p : Port) (f : List Byte) (s : State) : Except Denial Edit :=
  match streamOf (numAt f 3), portOf (numAt f 4) with
  | some id, some q =>
    if s.ring.state.allowsEdits then
      match (s.entry id).staged with
      | none => .error (.noSuchStream, 0)
      | some d =>
        if d.owner ≠ p then .error (.notOwner, 0)
        else if q ∈ d.subscribers then
          match overPage (s.stagedView.set id (some (d.passTo q))) q (s.admission.quotas.get q) with
          | some k => .error (.overQuota, k.val)
          | none =>
            .ok { id := id, staged := some (d.passTo q), notices := [(q, .streamGained id p)] }
        else .error (.notSubscriber, 0)
    else .error (.ringState, 0)
  | _, _ => .error (.badArgument, 0)

/-! ### The commands -/

/-- OPEN (R49, R50). -/
def execOpenStream (s : State) : Host.Outcome State Fault Refusal :=
  .next (s.takeRequest .openStream (editing judgeOpen))

/-- ALTER (R51, R52). -/
def execAlter (s : State) : Host.Outcome State Fault Refusal :=
  .next (s.takeRequest .alter (editing judgeAlter))

/-- CLOSE (R53). -/
def execClose (s : State) : Host.Outcome State Fault Refusal :=
  .next (s.takeRequest .close (editing judgeClose))

/-- SUBSCRIBE (R54). -/
def execSubscribe (s : State) : Host.Outcome State Fault Refusal :=
  .next (s.takeRequest .subscribe (editing judgeSubscribe))

/-- UNSUBSCRIBE (R55). -/
def execUnsubscribe (s : State) : Host.Outcome State Fault Refusal :=
  .next (s.takeRequest .unsubscribe (editing judgeUnsubscribe))

/-- HANDOVER (R56). -/
def execHandover (s : State) : Host.Outcome State Fault Refusal :=
  .next (s.takeRequest .handover (editing judgeHandover))

end Sys2Proof.Machine
end

