-- ==== Sys2Proof/Machine/TurnoverEvents.lean ====
section
/-! DEFINITION. Gathering and the freeze, the work list, the switch (chapter 4). -/

namespace Sys2Proof.Machine

/-! ## The work list (R73, R78, R79) -/

/-- The node at a position is READY. -/
def State.ready (s : State) (p : Pos) : Bool := (s.node p).state == .ready

/-- The work item of a position, by the comparison of its outgoing with its in-force tap list (R32, R73). -/
def workItemFor (outgoing inForce : Plan) (p : Pos) : WorkItem :=
  if outgoing.taps.get p = inForce.taps.get p ∧ outgoing.taps.get p ≠ [] then
    { position := p, mark := .keep, parts := 1, next := 1, outcome := .opened }
  else
    { position := p, mark := .load, parts := partCount (outgoing.taps.get p), next := 1,
      outcome := .opened }

/-- Items that become the first OPEN one while their node is not READY are SKIPPED (R78). -/
def skipWork (ready : Pos → Bool) : List WorkItem → List WorkItem
  | [] => []
  | w :: ws =>
    if w.outcome = .opened then
      if ready w.position then w :: ws else { w with outcome := .skipped } :: skipWork ready ws
    else w :: skipWork ready ws

/-- No work item has outcome OPEN (R79). -/
def workDone (l : List WorkItem) : Bool := l.all fun w => w.outcome != .opened

/-- The Turnover Controller goes on to its next work item: skips, and SWITCHING when none is left OPEN
(R78, R79; log 11). -/
def Turnover.advance (t : Turnover) (ready : Pos → Bool) : Turnover :=
  if t.state = .distributing then
    let work := skipWork ready t.work
    { t with work := work, state := if workDone work then .switching else .distributing }
  else t

/-- The Turnover Controller goes on to its next work item. -/
def State.advanceWork (s : State) : State := { s with turnover := s.turnover.advance s.ready }

/-! ## The freeze (R68, R70, R72) -/

/-- A freeze is due: its claim is made, or the gather counter stands at 0 in GATHERING (R68, R70, R71). -/
def Turnover.freezeDue (t : Turnover) : Bool :=
  match t.state with
  | .gathering => t.claim || t.gather == 0
  | .waiting => t.claim
  | .idle | .distributing | .switching => false

/-- The epoch guard holds the freeze back (R70). -/
def State.guarded (s : State) : Bool := allPositions.any fun p => (s.node p).guards s.turnover.epoch

/-- A refresh when a freeze is granted: ended at its outstanding exchange, or at once (R125). -/
def Control.endRefresh (c : Control) : Control :=
  { c with
    refresh :=
      if c.drops (· == .refresh) then c.refresh.map fun r => { r with ended := true } else none }

/-- The freeze (R72). -/
def State.makeFreeze (s : State) : State :=
  let target := s.turnover.epoch + 1
  let plan := compile s.stagedView target
  let work := (allPositions.filter s.ready).map (workItemFor plan s.plans.inForce)
  { s with
    streams := s.streams.map fun e => { e with outgoing := e.staged, member := false }
    plans := { s.plans with outgoing := some plan }
    admission := { s.admission with batchEmpty := true, batchTickets := Table.fill 0 }
    turnover :=
      { s.turnover with
        state := if work.isEmpty then .switching else .distributing
        gather := 0, flush := false, target := some target, outTickets := s.admission.batchTickets
        work := work, claim := false }
    control := s.control.endRefresh }

/-- The freeze claim decided when it is granted: the freeze is made, or the state becomes WAITING (R70). A refresh in
progress ends when the freeze is made, and goes on when it is held back, which R125 leaves open (DEDUCED, log 40). -/
def State.grantFreeze (s : State) : State :=
  if s.running && !s.guarded then s.makeFreeze
  else { s with turnover := { s.turnover with state := .waiting, gather := 0, claim := false } }

/-! ## The switch (R80 to R82) -/

/-- The receiving ports of a view's entry (R14). -/
def receiversOf : Option Descriptor → List Port
  | some d => d.receivers
  | none => []

/-- A switch that takes an in-force view from `old` to `new` empties the stream's post buffer (R147). -/
def emptiesPost (old new : Option Descriptor) : Bool :=
  match old, new with
  | none, none => false
  | some d, some d' => d.payload != d'.payload
  | none, some _ | some _, none => true

/-- The Slot Mover at a switch: post buffers, sequence counters, delivery tables (R81, R147, R148, R151). -/
def Mover.switchOver (m : Mover) (old new : ViewTable) (keepRetired : Bool) : Mover :=
  { posts := Table.tabulate fun id =>
      if emptiesPost (old.get id) (new.get id) then .empty else m.posts.get id
    sequences := Table.tabulate fun id =>
      if (old.get id).isNone && (new.get id).isSome then 0 else m.sequences.get id
    delivery := deliveryTableOf new
    retiredDelivery := if keepRetired then some m.delivery else none }

/-- The gap counters of a port at a switch: 0 for each stream it becomes a receiver of (R155). Of a port that
receives a stream before and after the switch, on another ground (it subscribed anew, or the stream was handed
to it), R13 and R14 taken alone would have the counter reset and R81 and R155 name only added receivers: the
counter stays (DESIGN CHOICE, log 30). -/
def HostPort.switchGaps (h : HostPort) (p : Port) (old new : ViewTable) : HostPort :=
  { h with
    gaps := Table.tabulate fun id =>
      if p ∈ receiversOf (new.get id) ∧ p ∉ receiversOf (old.get id) then 0 else h.gaps.get id }

/-- The position's work item is ACKNOWLEDGED. -/
def acknowledged (work : List WorkItem) (p : Pos) : Bool :=
  work.any fun w => w.position == p && w.outcome == .acknowledged

/-- The Node Table at a switch: acknowledged nodes hold the new epoch, and READY nodes that acknowledged
nothing become STALE, with their notices (R81, R130). -/
def State.switchNodes (s : State) (epoch : Epoch) : State :=
  let acked := acknowledged s.turnover.work
  let s := { s with
    nodes :=
      { s.nodes with
        entries := Table.tabulate fun p =>
          if acked p then { s.node p with held := some epoch } else s.node p } }
  s.changeNodes (allPositions.filter fun p => s.ready p && !acked p) NodeEntry.toStale .switch

/-- The SETTLED notices of a switch, in ascending port order (R20, R81). -/
def settledNotices (tickets : Table Ticket 4) (epoch : Epoch) : List (Port × Notice) :=
  (allPorts.filter fun p => tickets.get p != 0).map fun p => (p, .settled (tickets.get p) epoch)

/-- The Turnover Controller after a switch (R81, R82). -/
def Turnover.switched (t : Turnover) (epoch : Epoch) (batchEmpty : Bool) (window : Nat) : Turnover :=
  { state := if batchEmpty then .idle else .gathering
    gather := if batchEmpty || t.flush then 0 else window
    flush := false, target := none, epoch := epoch, outTickets := Table.fill 0, work := []
    claim := false }

/-- A record of a cycle sent under the plan in force is still awaited (R34). -/
def Ring.awaits (r : Ring) (epoch : Epoch) : Bool := r.sent.any fun c => c.epoch == epoch

/-- The switch, made as the switch cycle is sent (R81, R82). -/
def State.switchOver (s : State) : State :=
  let epoch := s.turnover.target.getD s.turnover.epoch
  let old := s.inForceView
  let new := s.outgoingView
  let keep := s.ring.awaits s.plans.inForce.epoch
  let s1 : State := { s with
    streams := s.streams.map fun e => { e with inForce := e.outgoing, outgoing := none }
    plans :=
      { inForce := s.plans.outgoing.getD s.plans.inForce
        outgoing := none
        retired := if keep then some s.plans.inForce else none }
    mover := s.mover.switchOver old new keep
    ports := Table.tabulate fun p => (s.port p).switchGaps p old new }
  let s2 := (s1.switchNodes epoch).postAll (settledNotices s.turnover.outTickets epoch)
  { s2 with
    turnover := s.turnover.switched epoch s.admission.batchEmpty s.ring.gatherWindow }

/-! ## The commands -/

/-- GATHER_COUNTER_EXPIRY (R68): the counter stands at 0, and the freeze claim is made. -/
def execGatherCounterExpiry (s : State) : Host.Outcome State Fault Refusal :=
  .next
    (if s.turnover.state = .gathering ∧ s.turnover.gather = 0 then
      { s with turnover := { s.turnover with claim := true } }
    else s)

/-- FREEZE (R70, R72): a due claim is granted between items and with an empty internal edit list (R42). -/
def execFreeze (s : State) : Host.Outcome State Fault Refusal :=
  .next
    (if s.turnover.freezeDue && s.admission.processing.isNone && s.admission.internal.isEmpty then
      s.grantFreeze
    else s)

end Sys2Proof.Machine
end

