-- ==== Sys2Proof/Machine/Cycles.lean ====
section
/-! DEFINITION. The hub cycle: its control field, its payload area, the switch, and the end of the quiet
cycles (chapters 5, 6 and 8). -/

namespace Sys2Proof.Machine

/-! ## The control field (R112, R122, R123) -/

/-- The first work item with outcome OPEN (R75). -/
def firstOpen (l : List WorkItem) : Option WorkItem := l.find? fun w => w.outcome == .opened

/-- The message of a work item (R75, R121). -/
def workMessage (plan : Plan) (w : WorkItem) : Message :=
  match w.mark with
  | .load => .tapload w.position plan.epoch w.next w.parts (partTaps (plan.taps.get w.position) w.next)
  | .keep => .keep w.position plan.epoch

/-- The message of a refresh: the next part of the in-force tap list, for the in-force epoch (R123). -/
def refreshMessage (plan : Plan) (r : Refresh) : Message :=
  .tapload r.position plan.epoch r.next r.parts (partTaps (plan.taps.get r.position) r.next)

/-- The lowest STALE node whose in-force tap list its capacity can hold (R123). -/
def State.refreshable (s : State) : Option Pos :=
  allPositions.find? fun p =>
    (s.node p).state == .stale &&
      match (s.node p).identity with
      | some i => decide ((s.plans.inForce.taps.get p).length ≤ i.capacity)
      | none => false

/-- A refresh of a position from its first part (R123). -/
def Plan.refreshOf (plan : Plan) (p : Pos) : Refresh :=
  { position := p, parts := partCount (plan.taps.get p), next := 1, ended := false }

/-- The refresh that has a message ready when cycle `c` is sent: the one in progress, or one that a refresh
tick finds due (R123). -/
def State.refreshFor (s : State) (c : CycleCount) : Option Refresh :=
  match s.control.refresh with
  | some r => if r.ended then none else some r
  | none =>
    if c.toNat % 64 = 0 ∧ s.running = true ∧ s.turnover.inFlight = false then
      s.refreshable.map s.plans.inForce.refreshOf
    else none

/-- The message of the Node Table procedure under way (R131, R134, R141). -/
def Procedure.message (t : Procedure) (epoch : Epoch) : Option (User × Message) :=
  match t with
  | .numbering _ => some (.numbering, .number epoch)
  | .identifying p => some (.identification, .identify p)
  | .verifying (p :: _) => some (.verification, .identify p)
  | .verifying [] | .idle | .reconciling => none

/-- The message of distribution (R75). -/
def State.distribution (s : State) : Option (User × Message) :=
  match s.turnover.state, firstOpen s.turnover.work, s.plans.outgoing with
  | .distributing, some w, some plan => some (.distribution, workMessage plan w)
  | _, _, _ => none

/-- The first user with a message ready, in the order of R122, with the refresh it leaves in progress. -/
def State.nextUser (s : State) (c : CycleCount) : Option (User × Message × Option Refresh) :=
  match s.nodes.procedure.message s.turnover.epoch with
  | some (u, m) => some (u, m, s.control.refresh)
  | none =>
    match s.distribution with
    | some (u, m) => some (u, m, s.control.refresh)
    | none => (s.refreshFor c).map fun r => (.refresh, refreshMessage s.plans.inForce r, some r)

/-- What the Control Channel gives a cycle: the field, whether it awaits a reply, and the channel after it. -/
structure CycleControl where
  field   : List Byte
  awaits  : Bool
  control : Control
deriving DecidableEq, Repr

/-- An attempt of an exchange placed in cycle `c`: a new sequence number each time (R113). -/
def Control.place (t : Control) (x : Exchange) (r : Option Refresh) (c : CycleCount) : CycleControl :=
  { field := x.message.octets t.sequence
    awaits := true
    control :=
      { exchange := some x, attempt := some { sequence := t.sequence, count := c },
        sequence := t.sequence + 1, refresh := r } }

/-- The control field of cycle `c` (R112). -/
def State.controlFor (s : State) (c : CycleCount) : CycleControl :=
  if s.ring.state = .quieting then { field := fieldQuiet, awaits := false, control := s.control }
  else
    let idle : CycleControl := { field := fieldNone, awaits := false, control := s.control }
    match s.control.attempt, s.control.exchange with
    | some _, _ => idle
    | none, some x => s.control.place x s.control.refresh c
    | none, none =>
      match s.nextUser c with
      | some (u, m, r) =>
        s.control.place { user := u, message := m, failed := 0, limit := s.ring.retryLimit } r c
      | none => idle

/-! ## The payload area (R29, R148, R149) -/

/-- Octets written over others from an offset on. -/
def writeAt (l : List Byte) (offset : Nat) (b : List Byte) : List Byte :=
  l.take offset ++ b ++ l.drop (offset + b.length)

/-- The source sequence counter after a send: raised by 1 modulo 16 for a NEW sample (R148). -/
def sequenceAfter (b : PostBuffer) (n : BitVec 4) : BitVec 4 :=
  match b with
  | .fresh _ => n + 1
  | .empty | .held _ => n

/-- A post buffer after a send (R148). -/
def bufferAfter (b : PostBuffer) : PostBuffer :=
  match b with
  | .fresh x => .held x
  | .empty => .empty
  | .held x => .held x

/-- The slot of a HOST source (R148). -/
def hostSlot (d : Descriptor) (b : PostBuffer) (n : BitVec 4) (tag : BitVec 2) : List Byte :=
  match b, d.policy with
  | .fresh x, _ => slotStatus 1 (sequenceAfter b n) tag :: x
  | .held x, .again => slotStatus 2 n tag :: x
  | .held _, .void => slotStatus 0 n tag :: zeros d.payload
  | .empty, _ => slotStatus 0 n tag :: zeros d.payload

/-- The slot that the hub sends for a stream: filled for a HOST source (R148), pre-filled VOID with a zero
payload for a NODE source (R149). -/
def State.slotOf (s : State) (id : StreamId) (d : Descriptor) : List Byte :=
  match d.source with
  | .host => hostSlot d (s.mover.posts.get id) (s.mover.sequences.get id) (epochTag s.turnover.epoch)
  | .node _ => slotStatus 0 0 (epochTag s.turnover.epoch) :: zeros d.payload

/-- The payload area of a page: each placement's slot at its offset, fill octets 0 (R29, R89). -/
def State.payloadFor (s : State) (k : Page) : List Byte :=
  (s.plans.inForce.layouts.get k).foldl
    (fun l pl =>
      match (s.entry pl.stream).inForce with
      | some d => writeAt l pl.offset (s.slotOf pl.stream d)
      | none => l)
    (zeros Config.payloadArea)

/-- The stream is HOST-sourced in force and has a placement on the page. -/
def State.hostOn (s : State) (k : Page) (id : StreamId) : Bool :=
  ((s.plans.inForce.layouts.get k).any fun pl => pl.stream == id) &&
    match (s.entry id).inForce with
    | some d => d.source == .host
    | none => false

/-- The Slot Mover after the fill of a page (R148). -/
def State.moverAfter (s : State) (k : Page) : Mover :=
  { s.mover with
    posts := Table.tabulate fun id =>
      if s.hostOn k id then bufferAfter (s.mover.posts.get id) else s.mover.posts.get id
    sequences := Table.tabulate fun id =>
      if s.hostOn k id then sequenceAfter (s.mover.posts.get id) (s.mover.sequences.get id)
      else s.mover.sequences.get id }

/-! ## The cycle (R89) -/

/-- Cycle `c` is the switch cycle when it is sent now (R80). -/
def State.switchDue (s : State) (c : CycleCount) : Bool :=
  s.turnover.state == .switching && c.toNat % 8 == 0

/-- One hub cycle composed and sent. The switch is made first when this is its cycle; the control field and
the payload area then follow the state it leaves (R80, R81, R89; log 10). -/
def State.sendCycle (s : State) : State :=
  let c := s.ring.nextCount
  let s1 := if s.switchDue c then s.switchOver else s
  let ctl := s1.controlFor c
  let octets := cycleOctets false s1.turnover.inFlight s1.turnover.epoch c 0 0 ctl.field
    (s1.payloadFor (pageOf c))
  let counting := s.turnover.state == .gathering
  { s1 with
    mover := s1.moverAfter (pageOf c)
    control := ctl.control
    turnover :=
      { s1.turnover with
        gather := if counting then s1.turnover.gather - 1 else s1.turnover.gather }
    ring :=
      { s1.ring with
        sent := s1.ring.sent ++
          [{ count := c, epoch := s1.turnover.epoch, awaits := ctl.awaits, start := s.ring.nextCell }]
        nextCount := c + 1
        nextCell := s.ring.nextCell + Config.cellsPerCycle
        quietLeft := if s.ring.state = .quieting then s.ring.quietLeft - 1 else s.ring.quietLeft
        rgo := octets
        beaconed := s1.ring.beaconed.filter (· != c) } }

/-- The hub sends a cycle now: in every state but OFF, and in QUIETING while quiet cycles are left (R89,
R106; log 21). -/
def Ring.sends (r : Ring) : Bool :=
  match r.state with
  | .off => false
  | .quieting => decide (0 < r.quietLeft)
  | .numbering | .identifying | .running | .broken | .halted => true

/-! ## Entry into OFF (R108) -/

/-- A view names a port as owner or subscriber. -/
def viewNames (p : Port) : Option Descriptor → Bool
  | some d => d.owner == p || d.subscribers.contains p
  | none => false

/-- The STREAM_CLOSED notices of an entry into OFF, by stream and then by port (R108). -/
def State.stoppedNotices (s : State) : List (Port × Notice) :=
  allStreams.flatMap fun id =>
    (allPorts.filter fun p =>
      viewNames p (s.entry id).staged || viewNames p (s.entry id).inForce).map fun p =>
        (p, .streamClosed id .ringStopped none)

/-- Entry into OFF (R22, R64, R86, R108, R111, R126, R160). -/
def State.enterOff (s : State) : State :=
  let s := s.postAll s.stoppedNotices
  ({ s with
    ports := s.ports.map fun h => { h with gaps := Table.fill 0 }
    streams := Table.fill Entry.free
    plans := Plans.reset
    admission :=
      { s.admission with internal := [], batchEmpty := true, batchTickets := Table.fill 0 }
    turnover := Turnover.reset
    control := { s.control with exchange := none, attempt := none, refresh := none }
    nodes := Nodes.reset
    mover := Mover.reset
    ring :=
      { s.ring with
        quietDest := none, quietLeft := 0, sent := [], latency := none, misses := 0, heal := 0,
        healOdd := false, shape := 0, breakPos := 0, rgo := [],
        beaconed := [] } } : State).enterRing .off .stopped

/-- The quiet cycles are over: the ring goes to its quiet destination (R102, R106, R107). R108 has the
destination become none on entry into OFF; that it becomes none on entry into NUMBERING too is the model's
(DESIGN CHOICE, log 31). -/
def State.endQuiet (s : State) : State :=
  match s.ring.quietDest with
  | some .numbering =>
    ({ s with
      ring := { s.ring with quietDest := none }
      nodes := { s.nodes with procedure := .numbering 0 } } : State).enterRing .numbering .start
  | some .off => s.enterOff
  | none => s

/-! ## The commands -/

/-- HUB_CYCLE (R89). -/
def execHubCycle (s : State) : Host.Outcome State Fault Refusal :=
  .next (if s.ring.sends then s.sendCycle else s)

/-- QUIET_CYCLES_END (R102). -/
def execQuietCyclesEnd (s : State) : Host.Outcome State Fault Refusal :=
  .next (if s.ring.state = .quieting ∧ s.ring.quietLeft = 0 then s.endQuiet else s)

end Sys2Proof.Machine
end

