-- ==== Sys2Proof/Machine/InternalEdits.lean ====
section
/-! DEFINITION. The internal edits: port entries and node entries (R57 to R61). -/

namespace Sys2Proof.Machine

/-- What an internal edit does to one stream: its new staged view and its notices, or none when it leaves
the stream as it is. -/
abbrev StreamChange := Option (Option Descriptor × List (Port × Notice))

/-- A STREAM_CLOSED notice to the owner and then to each subscriber in list order (R60, R61). -/
def closedNotices (d : Descriptor) (n : Notice) : List (Port × Notice) :=
  (d.owner :: d.subscribers).map fun q => (q, n)

/-- One internal entry processed as an item: the walk over the staged views in ascending stream id, its
notices in walk order, membership of every entry changed, and a batch that is non-empty (R58). -/
def State.internalEdit (s : State) (change : StreamId → Descriptor → StreamChange) : State :=
  let changeOf : StreamId → StreamChange := fun id =>
    match (s.entry id).staged with
    | some d => change id d
    | none => none
  let s' := { s with
    streams := Table.tabulate fun id =>
      match changeOf id with
      | some (d, _) => { s.entry id with staged := d, member := true }
      | none => s.entry id
    admission := { s.admission with internal := s.admission.internal.tail } }
  s'.noteBatch.postAll (allStreams.flatMap fun id =>
    match changeOf id with
    | some (_, l) => l
    | none => [])

/-- The internal entry that the Admission Unit would take now (R39, R40). -/
def State.nextInternal (s : State) : Option InternalEntry :=
  if s.admission.processing.isNone then s.admission.internal.head? else none

/-- What a port entry for `n` does to a stream (R59). -/
def portEntryChange (n : Port) (id : StreamId) (d : Descriptor) : StreamChange :=
  if d.owner = n then
    match d.source, d.subscribers with
    | .node _, q :: _ => some (some (d.passTo q), [(q, .streamGained id n)])
    | .node _, [] | .host, _ => some (none, [])
  else if n ∈ d.subscribers then
    some (some { d with subscribers := d.subscribers.erase n }, [])
  else none

/-- What a node entry with reason LOST for `p` does to a stream (R60). -/
def lostChange (p : Pos) (id : StreamId) (d : Descriptor) : StreamChange :=
  if d.source = .node p then
    some (none, closedNotices d (.streamClosed id .sourceLost (some p)))
  else if p ∈ d.sinks then
    let d' := { d with sinks := d.sinks.filter (· != p) }
    if d'.hasReceiver then some (some d', [(d.owner, .sinkRemoved id p)])
    else some (none, closedNotices d (.streamClosed id .sinksLost (some p)))
  else none

/-- What the items of a reference list that name one stream do to it, in list order (R61). -/
def changedSteps (p : Pos) (id : StreamId) : List RefRole → Descriptor → StreamChange
  | [], _ => none
  | .source :: _, d => some (none, closedNotices d (.streamClosed id .nodeChanged (some p)))
  | .sink :: rest, d =>
    if p ∈ d.sinks then
      let d' := { d with sinks := d.sinks.erase p }
      if d'.hasReceiver then
        let told := [(d.owner, Notice.sinkRemoved id p)]
        match changedSteps p id rest d' with
        | some (d'', more) => some (d'', told ++ more)
        | none => some (some d', told)
      else some (none, closedNotices d (.streamClosed id .sinksLost (some p)))
    else changedSteps p id rest d

/-- What a node entry with reason NODE_CHANGED does to a stream. The reference list is in ascending stream
id (R57), so the walk by stream id is the list's order (R61). -/
def changedChange (p : Pos) (refs : List (StreamId × RefRole)) (id : StreamId) (d : Descriptor) :
    StreamChange :=
  changedSteps p id ((refs.filter fun r => r.1 == id).map Prod.snd) d

/-! ## The commands -/

/-- PORT_ENTRY (R59). -/
def execPortEntry (s : State) : Host.Outcome State Fault Refusal :=
  match s.nextInternal with
  | some (.port n) => .next (s.internalEdit (portEntryChange n))
  | some (.lost _) | some (.changed _ _) | none => .next s

/-- NODE_ENTRY_LOST (R60). -/
def execNodeEntryLost (s : State) : Host.Outcome State Fault Refusal :=
  match s.nextInternal with
  | some (.lost p) => .next (s.internalEdit (lostChange p))
  | some (.port _) | some (.changed _ _) | none => .next s

/-- NODE_ENTRY_NODE_CHANGED (R61). -/
def execNodeEntryNodeChanged (s : State) : Host.Outcome State Fault Refusal :=
  match s.nextInternal with
  | some (.changed p refs) => .next (s.internalEdit (changedChange p refs))
  | some (.port _) | some (.lost _) | none => .next s

end Sys2Proof.Machine
end

