-- ==== Sys2Proof/Machine/NodeTable.lean ====
section
/-! DEFINITION. The Node Table's procedures: numbering, identification, verification, reconciliation
(chapter 7). -/

namespace Sys2Proof.Machine

/-! ## Numbering (R131 to R133) -/

/-- A numbering attempt failed; the third failure halts the ring with NO_RETURN (R131, R133). -/
def State.numberingFailed (s : State) : State :=
  match s.nodes.procedure with
  | .numbering k =>
    if Config.numberAttempts ≤ k + 1 then
      ({ s with nodes := { s.nodes with procedure := .idle, retained := none } } : State).enterRing
        .halted .noReturn
    else { s with nodes := { s.nodes with procedure := .numbering (k + 1) } }
  | .idle | .identifying _ | .reconciling | .verifying _ => s

/-- The Node Table after a numbering that counted `n` nodes (R132). -/
def Nodes.numbered (t : Nodes) (n : Fin 16) : Nodes :=
  { t with
    entries := Table.tabulate fun p =>
      NodeEntry.blank (if p.val < n.val then .unidentified else .absent)
    count := n
    procedure :=
      if n.val = 0 then (if t.retained.isSome then .reconciling else .idle) else .identifying 0 }

/-- A numbering attempt returned counter `c`, its mark `delay` bit cells after it was sent (R132, R133). -/
def State.numberingReturned (s : State) (c delay : Nat) : State :=
  if h : c - 1 < 16 then
    let s := { s with
      nodes := s.nodes.numbered ⟨c - 1, h⟩
      ring := { s.ring with latency := some delay } }
    if c - 1 = 0 then
      if s.nodes.retained.isSome then s else s.enterRing .running .numbered
    else s.enterRing .identifying .numbered
  else
    ({ s with nodes := { s.nodes with procedure := .idle, retained := none } } : State).enterRing
      .halted .tooMany

/-! ## Identification (R134 to R136) -/

/-- The exchange of a position has concluded; the next one follows, or identification is over (R134, R136). -/
def State.identifyNext (s : State) (p : Pos) : State :=
  if h : p.val + 1 < s.nodes.count.val then
    { s with
      nodes := { s.nodes with procedure := .identifying ⟨p.val + 1, by have := s.nodes.count.isLt; omega⟩ } }
  else if s.nodes.retained.isSome then { s with nodes := { s.nodes with procedure := .reconciling } }
  else
    ({ s with nodes := { s.nodes with procedure := .idle } } : State).enterRing .running .numbered

/-- The entry of an identified node (R135). -/
def NodeEntry.identified (i : Identity) (held : Option Epoch) (epoch : Epoch) : NodeEntry :=
  { state := if held = some epoch then .ready else .stale, identity := some i, held := held,
    failures := 0 }

/-- A matching IDENTITY in identification (R135). -/
def State.identified (s : State) (p : Pos) (i : Identity) (held : Option Epoch) : State :=
  (s.updateNode p fun _ => NodeEntry.identified i held s.turnover.epoch).identifyNext p

/-- An IDENTIFY of identification failed with its attempts spent (R136). -/
def State.unidentified (s : State) (p : Pos) : State :=
  (s.updateNode p fun e => { e with state := .lost }).identifyNext p

/-! ## Verification (R104, R141, R142) -/

/-- A verification round over the positions that are READY or STALE now; with none it ends at once (R141). -/
def State.beginVerification (s : State) : State :=
  let l := allPositions.filter fun p => (s.node p).state == .ready || (s.node p).state == .stale
  { s with nodes := { s.nodes with procedure := if l.isEmpty then .idle else .verifying l } }

/-- The round after the exchange of its first position has concluded. -/
def Procedure.verifyNext : Procedure → Procedure
  | .verifying (_ :: q :: l) => .verifying (q :: l)
  | .verifying [_] | .verifying [] | .idle => .idle
  | .numbering k => .numbering k
  | .identifying p => .identifying p
  | .reconciling => .reconciling

/-- The round after the exchange of its first position has concluded. -/
def State.verifyNext (s : State) : State :=
  { s with nodes := { s.nodes with procedure := s.nodes.procedure.verifyNext } }

/-- The entry of a verified node whose serial is as stored (R141). -/
def NodeEntry.verified (e : NodeEntry) (held : Option Epoch) (epoch : Epoch) : NodeEntry :=
  if held = some epoch then { e with state := .ready, held := held, failures := 0 }
  else { e with state := .stale, held := held }

/-- The serial is the one stored (R141). -/
def NodeEntry.serialIs (e : NodeEntry) (x : BitVec 32) : Bool :=
  match e.identity with
  | some i => i.serial == x
  | none => false

/-- A matching IDENTITY in a verification round (R141, R142). -/
def State.verified (s : State) (p : Pos) (i : Identity) (held : Option Epoch) : State :=
  if (s.node p).serialIs i.serial then
    (s.changeNode p (fun e => e.verified held s.turnover.epoch) .verification).verifyNext
  else s.verifyNext.halt .shape

/-- A verification IDENTIFY failed with its attempts spent (R141). -/
def State.unverified (s : State) (p : Pos) : State :=
  (s.changeNode p NodeEntry.toStale .verification).verifyNext

/-! ## Reconciliation (R8, R138, R139) -/

/-- The serial of an entry that takes part in reconciliation: READY or STALE (R138). -/
def NodeEntry.takingPart (e : NodeEntry) : Option (BitVec 32) :=
  match e.state with
  | .ready | .stale => e.identity.map Identity.serial
  | .absent | .unidentified | .lost => none

/-- The positions of a table whose entries take part with a serial. -/
def holders (t : Table NodeEntry 15) (x : BitVec 32) : List Pos :=
  allPositions.filter fun p => (t.get p).takingPart == some x

/-- The new position of an old one: its serial is held by exactly one old and one new entry (R138). -/
def newPosition (old new : Table NodeEntry 15) (p : Pos) : Option Pos :=
  match (old.get p).takingPart with
  | none => none
  | some x =>
    match holders old x, holders new x with
    | [_], [q] => some q
    | _, _ => none

/-- The gone nodes: old entries READY or STALE with no new position, ascending (R138). -/
def goneNodes (old new : Table NodeEntry 15) : List Pos :=
  allPositions.filter fun p =>
    ((old.get p).state == .ready || (old.get p).state == .stale) && (newPosition old new p).isNone

/-- The places of a descriptor that refer to a position (R57). -/
def Descriptor.refsTo (d : Descriptor) (p : Pos) : List RefRole :=
  (if d.source = .node p then [.source] else []) ++ (d.sinks.filter (· == p)).map fun _ => .sink

/-- The reference list of a gone node, by ascending stream id (R57, R139). -/
def referenceList (v : ViewTable) (p : Pos) : List (StreamId × RefRole) :=
  allStreams.flatMap fun id =>
    match v.get id with
    | some d => (d.refsTo p).map fun r => (id, r)
    | none => []

/-- A descriptor with its positions moved; the sinks are sorted again (R8). -/
def Descriptor.rewrite (d : Descriptor) (move : Pos → Pos) : Descriptor :=
  { d with
    source := match d.source with
      | .host => .host
      | .node p => .node (move p)
    sinks := sortPositions (d.sinks.map move) }

/-- The position rewrite of an entry: staged and in-force views (R8). -/
def Entry.rewrite (e : Entry) (move : Pos → Pos) : Entry :=
  { e with staged := e.staged.map fun d => d.rewrite move
           inForce := e.inForce.map fun d => d.rewrite move }

/-- The Turnover Controller at reconciliation: WAITING with the counter at 0 (R67). -/
def Turnover.reconciled (t : Turnover) : Turnover :=
  { t with gather := 0, claim := false, state := if t.inFlight then t.state else .waiting }

/-- The reconciliation, with the retained table it reads (R139). -/
def State.reconcile (s : State) (old : Retained) : State :=
  let move : Pos → Pos := fun p => (newPosition old.entries s.nodes.entries p).getD p
  let entries := (goneNodes old.entries s.nodes.entries).map fun p =>
    InternalEntry.changed p (referenceList s.stagedView p)
  let streams := s.streams.map fun e => e.rewrite move
  ({ s with
    admission :=
      { s.admission with
        internal := entries.foldl enqueue s.admission.internal
        batchEmpty := false }
    streams := streams
    plans :=
      { s.plans with
        inForce := compile (streams.map Entry.inForce) s.plans.inForce.epoch }
    turnover := s.turnover.reconciled
    nodes := { s.nodes with retained := none, procedure := .idle } } : State).enterRing
      .running .numbered

/-! ## The command -/

/-- RECONCILIATION (R139): the claim is granted between items, with an empty internal edit list (R42). -/
def execReconciliation (s : State) : Host.Outcome State Fault Refusal :=
  .next
    (match s.nodes.procedure, s.nodes.retained with
    | .reconciling, some old =>
      if s.admission.processing.isNone && s.admission.internal.isEmpty then s.reconcile old else s
    | _, _ => s)

end Sys2Proof.Machine
end

