-- ==== Sys2Proof/Machine/Requests.lean ====
section
/-! DEFINITION. The requests that are not edits: queries, Flush, Attach and Detach, Set Quota, the ring
requests and Device Reset. -/

namespace Sys2Proof.Machine

/-- A request answered DONE with data, its effect being `s'`. -/
def answered (s' : State) (data : List Byte) : State × Option Reply := (s', some (.done data))

/-- Step 4 of the check order: the port holds ring authority (R45, R174). -/
def ringLevel (p : Port) (act : Effect) : Effect := fun s =>
  if (s.port p).authority then act s else refuse .notAuthority 0 s

/-! ## Queries -/

/-- Stream Query's data: id, state, frozen and membership flags, three views (R21, R193). -/
def streamQueryData (id : StreamId) (e : Entry) : List Byte :=
  [octet id.val, octet e.state.code, flagOctet e.outgoing.isSome, flagOctet e.member] ++
    viewOctets e.staged ++ viewOctets e.outgoing ++ viewOctets e.inForce

/-- Stream Query (R21). -/
def actStreamQuery (_p : Port) (f : List Byte) : Effect := fun s =>
  match streamOf (numAt f 3) with
  | some id => answered s (streamQueryData id (s.entry id))
  | none => refuse .badArgument 0 s

/-- One view's figures in an Occupancy Query: for each page its total, its free octets and the asking port's
own octets (R37). -/
def occupancyFigures (v : ViewTable) (p : Port) : List Byte :=
  allPages.flatMap fun k =>
    [octet (pageTotal v k), octet (Config.payloadArea - pageTotal v k), octet (usage v p k)]

/-- Occupancy Query (R37). -/
def actOccupancyQuery (p : Port) (_f : List Byte) : Effect := fun s =>
  answered s (octet (s.admission.quotas.get p) ::
    (occupancyFigures s.stagedView p ++ occupancyFigures s.inForceView p))

/-- An identity's octets with its flag (R193). Where none is held, R193 gives the flag 0 and no value for the
other seven octets: they are a free value of each answer (log 28). -/
def identityOctets (reading : Nat) : Option Identity → List Byte
  | some i => [1, i.cls, i.revision] ++ octets32 i.serial ++ [octet i.capacity]
  | none => 0 :: padTo 7 (Config.absentIdentity reading)

/-- Node Query's data (R143, R193). -/
def nodeQueryData (s : State) (q : Pos) : List Byte :=
  [octet (posNum q), octet (s.node q).state.code] ++ identityOctets s.freeCount (s.node q).identity ++
    [heldOctet (s.node q).held, octet (s.node q).failures] ++
    octetsNat (tapCount s.stagedView q) ++ octetsNat (s.plans.inForce.taps.get q).length ++
    [octet s.nodes.count.val, octet s.ring.breakPos.val]

/-- Node Query (R143); each answer without an identity reads fresh free values (log 28). -/
def actNodeQuery (_p : Port) (f : List Byte) : Effect := fun s =>
  match posOf (numAt f 3) with
  | some q =>
    answered
      { s with freeCount := if (s.node q).identity.isNone then s.freeCount + 1 else s.freeCount }
      (nodeQueryData s q)
  | none => refuse .badArgument 0 s

/-! ## Flush -/

/-- What a Flush does at the Turnover Controller (R69). -/
def Turnover.flushed (t : Turnover) (batchEmpty : Bool) : Turnover :=
  match t.state with
  | .idle | .waiting => t
  | .gathering => { t with gather := 0, claim := true }
  | .distributing | .switching => if batchEmpty then t else { t with flush := true }

/-- Flush (R69). -/
def actFlush (_p : Port) (_f : List Byte) : Effect := fun s =>
  let t := s.turnover.flushed s.admission.batchEmpty
  answered { s with turnover := t } [octet t.state.code, epochOctet t.epoch]

/-! ## Sessions -/

/-- A port taken by an accepted Attach: a new session when it was not ATTACHED, the lease and the enables in
either case (R170). -/
def HostPort.attachWith (h : HostPort) (lease enables : Byte) : HostPort :=
  ({ h with
    state := .attached
    leaseSetting := lease
    events := h.events.setEnables enables } : HostPort).loadLease

/-- Attach (R170). -/
def actAttach (p : Port) (f : List Byte) : Effect := fun s =>
  if (octetAt f 4).getLsbD 7 then refuse .badArgument 0 s
  else
    answered (s.modPort p fun h => h.attachWith (octetAt f 3) (octetAt f 4))
      [octet p.val, flagOctet (s.port p).authority, octet s.ring.state.code]

/-- Detach (R173). -/
def actDetach (p : Port) (_f : List Byte) : Effect := fun s =>
  answered
    ((s.endSession p).modPort p fun h =>
      { h with state := .detached, leaseTimer := none, leaseSetting := 0 }) []

/-- Set Quota (R175). -/
def actSetQuota (p : Port) (f : List Byte) : Effect := fun s =>
  match portOf (numAt f 3) with
  | some q =>
    if numAt f 4 ≤ Config.payloadArea then
      ringLevel p (fun s =>
        answered
          { s with admission := { s.admission with quotas := s.admission.quotas.set q (numAt f 4) } }
          [octet q.val, octetAt f 4]) s
    else refuse .badArgument 0 s
  | none => refuse .badArgument 0 s

/-! ## Ring requests (R106 to R110) -/

/-- The ring begins its four quiet cycles toward a destination (R106, R107). -/
def State.beginQuiet (s : State) (dest : QuietDest) (reason : RingReason) : State :=
  ({ s with ring := { s.ring with quietDest := some dest, quietLeft := 4 } } : State).enterRing
    .quieting reason

/-- Ring Start (R106). -/
def actRingStart (p : Port) (_f : List Byte) : Effect :=
  ringLevel p fun s =>
    if s.ring.state = .off then answered (s.beginQuiet .numbering .start) []
    else refuse .ringState 0 s

/-- What a Ring Stop or a Ring Restart ends: a turnover in flight, the procedure under way, the outstanding
exchange and refresh (R107, R109, R117). -/
def State.endRingWork (s : State) : State :=
  let s := (s.leaveRunning false).dropExchange fun _ => true
  { s with control := { s.control with refresh := none }, nodes := { s.nodes with procedure := .idle } }

/-- Ring Stop (R107). -/
def actRingStop (p : Port) (_f : List Byte) : Effect :=
  ringLevel p fun s =>
    match s.ring.state with
    | .off => refuse .ringState 0 s
    | .quieting => answered { s with ring := { s.ring with quietDest := some .off } } []
    | .numbering | .identifying | .running | .broken | .halted =>
      answered (s.endRingWork.beginQuiet .off .stop) []

/-- The Node Table as a Ring Restart leaves it: its entries retained, numbering begun (R109, R137). -/
def Nodes.restart (t : Nodes) : Nodes :=
  { t with retained := some { entries := t.entries, count := t.count }, procedure := .numbering 0 }

/-- Ring Restart (R109). -/
def actRingRestart (p : Port) (_f : List Byte) : Effect :=
  ringLevel p fun s =>
    match s.ring.state with
    | .running | .broken | .halted =>
      let s := s.endRingWork
      answered
        (({ s with
            nodes := s.nodes.restart
            ring := { s.ring with misses := 0, heal := 0, healOdd := false, shape := 0 } } : State).enterRing
          .numbering .restart) []
    | .off | .quieting | .numbering | .identifying => refuse .ringState 0 s

/-- Set Ring Parameters (R110). -/
def actSetRingParameters (p : Port) (f : List Byte) : Effect := fun s =>
  match rateOf (numAt f 3) with
  | some rate =>
    if 1 ≤ numAt f 4 ∧ numAt f 4 ≤ 8 ∧ 1 ≤ numAt f 5 ∧ numAt f 5 ≤ 16 ∧ numAt f 6 ≤ 7 then
      ringLevel p (fun s =>
        if rate ≠ s.ring.rate ∧ s.ring.state ≠ .off then refuse .ringState 0 s
        else
          answered
            { s with
              ring :=
                { s.ring with
                  rate := rate, missLimit := numAt f 4, healCount := numAt f 5,
                  retryLimit := numAt f 6, gatherWindow := numAt f 7 } }
            [octet rate.code, octetAt f 4, octetAt f 5, octetAt f 6, octetAt f 7]) s
    else refuse .badArgument 0 s
  | none => refuse .badArgument 0 s

/-- Device Reset: refused, or carried out without an answer (R176). -/
def actDeviceReset (straps : BitVec 2) (p : Port) (_f : List Byte) : Effect :=
  ringLevel p fun s => (s.resetWith .command straps false, none)

/-! ## The commands -/

/-- STREAM_QUERY (R21). -/
def execStreamQuery (s : State) : Host.Outcome State Fault Refusal :=
  .next (s.takeRequest .streamQuery actStreamQuery)

/-- OCCUPANCY_QUERY (R37). -/
def execOccupancyQuery (s : State) : Host.Outcome State Fault Refusal :=
  .next (s.takeRequest .occupancyQuery actOccupancyQuery)

/-- NODE_QUERY (R143). -/
def execNodeQuery (s : State) : Host.Outcome State Fault Refusal :=
  .next (s.takeRequest .nodeQuery actNodeQuery)

/-- FLUSH (R69). -/
def execFlush (s : State) : Host.Outcome State Fault Refusal := .next (s.takeRequest .flush actFlush)

/-- ATTACH (R170). -/
def execAttach (s : State) : Host.Outcome State Fault Refusal := .next (s.takeRequest .attach actAttach)

/-- DETACH (R173). -/
def execDetach (s : State) : Host.Outcome State Fault Refusal := .next (s.takeRequest .detach actDetach)

/-- SET_QUOTA (R175). -/
def execSetQuota (s : State) : Host.Outcome State Fault Refusal :=
  .next (s.takeRequest .setQuota actSetQuota)

/-- RING_START (R106). -/
def execRingStart (s : State) : Host.Outcome State Fault Refusal :=
  .next (s.takeRequest .ringStart actRingStart)

/-- RING_STOP (R107). -/
def execRingStop (s : State) : Host.Outcome State Fault Refusal :=
  .next (s.takeRequest .ringStop actRingStop)

/-- RING_RESTART (R109). -/
def execRingRestart (s : State) : Host.Outcome State Fault Refusal :=
  .next (s.takeRequest .ringRestart actRingRestart)

/-- SET_RING_PARAMETERS (R110). -/
def execSetRingParameters (s : State) : Host.Outcome State Fault Refusal :=
  .next (s.takeRequest .setRingParameters actSetRingParameters)

/-- DEVICE_RESET (R176). -/
def execDeviceReset (straps : BitVec 2) (s : State) : Host.Outcome State Fault Refusal :=
  .next (s.takeRequest .deviceReset (actDeviceReset straps))

end Sys2Proof.Machine
end

