-- ==== Sys2Proof/Machine/Channel.lean ====
section
/-! DEFINITION. The Control Channel at a return: replies, attempts, and what each exchange's conclusion
does for its user (chapters 4, 6 and 7). -/

namespace Sys2Proof.Machine

/-- The class of a return, with the octets of a good or damaged one and the origin a beacon gave to a miss
(R97). -/
inductive ReturnClass where
  | good (octets : List Byte)
  | damaged (octets : List Byte)
  | miss (origin : Option (Fin 17))
deriving DecidableEq, Repr

/-- What the channel reads of the outstanding attempt (R115, R118). -/
inductive Heard where
  | failed
  | number (counter : Nat)
  | identity (i : Identity) (held : Option Epoch)
  | ack
  | nak
deriving DecidableEq, Repr

/-- A held epoch field: 0 to 15, or 0xFF for none (R186). -/
def heldOf (n : Nat) : Option (Option Epoch) :=
  if n = 255 then some none else if n < 16 then some (some (BitVec.ofNat 4 n)) else none

/-- The identity that an IDENTITY field carries (R190). -/
def identityOf (f : List Byte) : Identity :=
  { cls := octetAt f 3, revision := octetAt f 4,
    serial := octetAt f 5 ++ octetAt f 6 ++ octetAt f 7 ++ octetAt f 8, capacity := numAt f 9 }

/-- A control field read as the answer to a message with a sequence number (R115, R118, R190; a NUMBER with
counter 0, log 9). -/
def hearField (m : Message) (sequence : Byte) (f : List Byte) : Heard :=
  if octetAt f 2 ≠ sequence then .failed
  else
    match m with
    | .number _ => if octetAt f 0 = 0x01 ∧ numAt f 3 ≠ 0 then .number (numAt f 3) else .failed
    | .identify p =>
      match heldOf (numAt f 10) with
      | some held =>
        if octetAt f 0 = 0x20 ∧ numAt f 1 = posNum p ∧ 8 ≤ numAt f 9 ∧ numAt f 9 ≤ 64 then
          .identity (identityOf f) held
        else .failed
      | none => .failed
    | .tapload p e part _ _ =>
      if numAt f 1 = posNum p ∧ octetAt f 3 = epochOctet e ∧ numAt f 4 = part then
        if octetAt f 0 = 0x21 then .ack else if octetAt f 0 = 0x23 then .nak else .failed
      else .failed
    | .keep p e =>
      if octetAt f 0 = 0x22 ∧ numAt f 1 = posNum p ∧ octetAt f 3 = epochOctet e then .ack else .failed

/-- What a return says of the outstanding attempt: only a good return is read (R115). -/
def hear (m : Message) (sequence : Byte) (cls : ReturnClass) : Heard :=
  match cls with
  | .good octets => hearField m sequence (controlOf octets)
  | .damaged _ | .miss _ => .failed

/-- The outstanding exchange concluded (R116). -/
def State.closeExchange (s : State) : State :=
  { s with control := { s.control with exchange := none, attempt := none } }

/-- The outstanding exchange goes on with another attempt (R116). -/
def State.retryExchange (s : State) (x : Exchange) : State :=
  { s with control := { s.control with exchange := some x, attempt := none } }

/-! ## Distribution (R76, R77) -/

/-- The first OPEN work item changed (R76). -/
def mapFirstOpen (f : WorkItem → WorkItem) : List WorkItem → List WorkItem
  | [] => []
  | w :: ws => if w.outcome = .opened then f w :: ws else w :: mapFirstOpen f ws

/-- The current work item changed. -/
def State.modWork (s : State) (f : WorkItem → WorkItem) : State :=
  { s with turnover := { s.turnover with work := mapFirstOpen f s.turnover.work } }

/-- A work item acknowledged: the next part of a LOAD, or done (R76). -/
def WorkItem.acked (w : WorkItem) : WorkItem :=
  if w.next < w.parts then { w with next := w.next + 1 } else { w with outcome := .acknowledged }

/-! ## Refresh (R123 to R125) -/

/-- A part of a refresh acknowledged (R123, R124, R125). -/
def State.refreshAcked (s : State) : State :=
  match s.control.refresh with
  | none => s
  | some r =>
    let ended : State := { s with control := { s.control with refresh := none } }
    if r.ended then
      if r.next < r.parts then ended
      else ended.updateNode r.position fun e => { e with held := some s.turnover.epoch }
    else if r.next < r.parts then
      { s with control := { s.control with refresh := some { r with next := r.next + 1 } } }
    else
      ended.changeNode r.position
        (fun e => { e with state := .ready, held := some s.turnover.epoch, failures := 0 }) .refresh

/-- A refresh exchange failed with its attempts spent; the fourth failure makes the node LOST (R124). -/
def State.refreshFailed (s : State) (p : Pos) : State :=
  let s : State := { s with control := { s.control with refresh := none } }
  if Config.refreshFailures ≤ (s.node p).failures + 1 then
    (s.changeNode p (fun e => { e with state := .lost, failures := e.failures + 1 })
      .refreshFailed).queueInternal (.lost p)
  else s.updateNode p fun e => { e with failures := e.failures + 1 }

/-! ## Conclusions (R116) -/

/-- An exchange with a position failed with its attempts spent (R77, R124, R136, R141). -/
def State.giveUp (s : State) (u : User) (p : Pos) : State :=
  match u with
  | .numbering => s
  | .identification => s.unidentified p
  | .verification => s.unverified p
  | .distribution =>
    (s.modWork fun w => { w with outcome := .stale }).changeNode p NodeEntry.toStale .distribution
  | .refresh => s.refreshFailed p

/-- The position a message is addressed to, none for a broadcast. -/
def Message.position : Message → Option Pos
  | .number _ => none
  | .identify p | .tapload p _ _ _ _ | .keep p _ => some p

/-- A failed attempt: sent again while the count is at or below the limit, and given up beyond it (R116). A
NUMBER attempt is an exchange of its own (R118). -/
def State.attemptFailed (s : State) (x : Exchange) : State :=
  match x.message.position with
  | none => s.closeExchange.numberingFailed
  | some p =>
    if x.failed + 1 ≤ x.limit then s.retryExchange { x with failed := x.failed + 1 }
    else s.closeExchange.giveUp x.user p

/-- Part 1 of the tap list that a NAK restarts: the outgoing plan's for distribution, the in-force plan's
for refresh (R116, R121). -/
def State.firstPart (s : State) (x : Exchange) (p : Pos) : Message :=
  let plan := match x.user with
    | .distribution => s.plans.outgoing.getD s.plans.inForce
    | .refresh | .numbering | .identification | .verification => s.plans.inForce
  .tapload p plan.epoch 1 (partCount (plan.taps.get p)) (partTaps (plan.taps.get p) 1)

/-- The refresh in progress has been ended by a freeze (R125). -/
def Control.refreshEnded (c : Control) : Bool :=
  match c.refresh with
  | some r => r.ended
  | none => false

/-- A matching NAK (R76, R116, R123, R125). -/
def State.nakHeard (s : State) (x : Exchange) : State :=
  match x.message.position with
  | none => s
  | some p =>
    if x.limit < x.failed + 1 then s.closeExchange.giveUp x.user p
    else
      let again := s.retryExchange { x with failed := x.failed + 1, message := s.firstPart x p }
      match x.user with
      | .distribution => again.modWork fun w => { w with next := 1 }
      | .refresh =>
        if s.control.refreshEnded then
          let s := s.closeExchange
          { s with control := { s.control with refresh := none } }
        else
          { again with
            control :=
              { again.control with refresh := again.control.refresh.map fun r => { r with next := 1 } } }
      | .numbering | .identification | .verification => again

/-- A matching LOADACK or KEEPACK (R76, R123). -/
def State.ackHeard (s : State) (x : Exchange) : State :=
  match x.user with
  | .distribution => s.closeExchange.modWork WorkItem.acked
  | .refresh => s.closeExchange.refreshAcked
  | .numbering | .identification | .verification => s.closeExchange

/-- A matching IDENTITY (R135, R141). -/
def State.identityHeard (s : State) (x : Exchange) (i : Identity) (held : Option Epoch) : State :=
  match x.user, x.message.position with
  | .identification, some p => s.closeExchange.identified p i held
  | .verification, some p => s.closeExchange.verified p i held
  | _, _ => s.closeExchange

/-- The Control Channel at the return of a cycle: the outstanding attempt is decided when this is the cycle
that carries it (R115, R116, R118). A reply is read whatever the hop count of its return: R134 has a hop-count
mismatch in IDENTIFYING cost the attempt that the cycle carried, where R115 concludes on any good return with a
matching reply, and the latter is followed (DESIGN CHOICE, log 37). -/
def State.channel (s : State) (r : CycleRecord) (cls : ReturnClass) (delay : Nat) : State :=
  match s.control.exchange, s.control.attempt with
  | some x, some a =>
    if r.awaits && a.count == r.count then
      match hear x.message a.sequence cls with
      | .failed => s.attemptFailed x
      | .number c => s.closeExchange.numberingReturned c delay
      | .identity i held => s.identityHeard x i held
      | .ack => s.ackHeard x
      | .nak => s.nakHeard x
    else s
  | _, _ => s

end Sys2Proof.Machine
end

