-- ==== Sys2Proof/Machine/Transactions.lean ====
section
/-! DEFINITION. The nine transactions of a host port, clock by clock (chapters 8, 9 and 10). -/

namespace Sys2Proof.Machine

/-! ## The octets of a transaction -/

/-- A transaction of kind `k` as it stands at the end of its header, with the octets it then has to send. -/
def Txn.start (k : TxnKind) (sending : List Byte) (removes : Bool) : Txn :=
  { kind := some k, bits := [], taken := [], sending := sending, removes := removes }

/-- The transaction at the assertion of select: no kind yet, and the status octet to send (R162, R163). -/
def Txn.header (status : Byte) : Txn :=
  { kind := none, bits := [], taken := [], sending := [status], removes := false }

/-- What the kind does at the header's end: FETCH chooses its entry or the empty marker (R167), STATUS takes
its block (R168), TAKE and DONE act (R181, R183). -/
def HostPort.serve (h : HostPort) (k : TxnKind) (block : List Byte) : HostPort :=
  match k with
  | .fetch =>
    match h.responses.head? with
    | some e => { h with txn := some (Txn.start k e.octets true) }
    | none => { h with txn := some (Txn.start k [0] false) }
  | .status => { h with txn := some (Txn.start k block false) }
  | .take => { h with events := h.events.take.1, txn := some (Txn.start k h.events.take.2 false) }
  | .serviceDone =>
    { h with events := h.events.serviceDone.1, txn := some (Txn.start k h.events.serviceDone.2 false) }
  | .request | .drain | .post | .eventset | .unknown => { h with txn := some (Txn.start k [] false) }

/-- What a DRAIN sends from here on: the rest of what it was sending, or else the head record, or else an
empty-record marker (R157). -/
def Txn.drainNext (t : Txn) (q : List Record) : Txn :=
  match t.sending, q with
  | _ :: _, _ => t
  | [], r :: _ => { t with sending := r.octets, removes := true }
  | [], [] => { t with sending := emptyMarker, removes := false }

/-- What a transaction sends from here on; a DRAIN chooses its next item at the first clock after the last
(R157; log 15). -/
def Txn.outgoing (t : Txn) (q : List Record) : Txn := if t.kind = some .drain then t.drainNext q else t

/-- One octet sent: the transaction with the octet gone, and whether that completed an item whose
completion removes it from its queue. -/
def Txn.sent (t : Txn) : Txn :=
  { t with bits := [], sending := t.sending.tail, removes := t.removes && t.sending.tail ≠ [] }

/-- Sending the next octet completes an item that is then removed from its queue. -/
def Txn.completes (t : Txn) : Bool := t.removes && t.sending.tail == [] && t.sending != []

/-- The eighth clock of an octet `b`: the header's names the kind, and any other octet is taken in or has been
sent (R157, R162, R167). `block` is the status block of the port. -/
def HostPort.endOctet (h : HostPort) (block : HostPort → List Byte) (t : Txn) (b : Byte) : HostPort :=
  match t.kind with
  | none => h.serve (headerKind b) (block h)
  | some .request | some .post | some .eventset =>
    { h with txn := some { t with bits := [], taken := t.taken ++ [b] } }
  | some .fetch =>
    { h with
      txn := some t.sent
      responses := if t.completes then h.responses.tail else h.responses }
  | some .drain =>
    { h with
      txn := some t.sent
      delivery := if t.completes then h.delivery.tail else h.delivery }
  | some .status | some .take | some .serviceDone => { h with txn := some t.sent }
  | some .unknown => { h with txn := some { t with bits := [] } }

/-! ## The clocks of a transaction -/

/-- The bit that goes out on HDO with the next clock: of the octet being sent, the most significant bit first, and
0 where there is nothing to send (R162, R186). -/
def Txn.nextBit (t : Txn) : Bool := (octetBits (t.sending.headD 0)).getD t.bits.length false

/-- One clock: bit `b` in from HDI, and a bit out on HDO (R162). -/
def HostPort.clockBit (block : HostPort → List Byte) (h : HostPort) (b : Bool) : HostPort :=
  match h.txn with
  | none => h
  | some t =>
    let t := t.outgoing h.delivery
    let h := { h with hdo := h.hdo ++ [t.nextBit] }
    if t.bits.length = 7 then h.endOctet block t (octetOf (t.bits ++ [b]))
    else { h with txn := some { t with bits := t.bits ++ [b] } }

/-- The port's select is asserted. -/
def HostPort.selected (h : HostPort) : Bool := h.txn.isSome || h.heldOver

/-- The bit that goes out with the next clock; 0 for what is left of a transaction that a reset voided (R162,
R176). Which item a DRAIN takes it from is decided by that clock (log 15). -/
def HostPort.nextOut (h : HostPort) : Bool :=
  match h.txn with
  | some t => (t.outgoing h.delivery).nextBit
  | none => false

/-- The SPI modes a host may use (R162). -/
inductive SpiMode where
  | mode0 | mode3
deriving DecidableEq, Repr

/-- The level at which HCLK idles: low in mode 0, high in mode 3 (R162). -/
def SpiMode.idle : SpiMode → Bool
  | .mode0 => false
  | .mode3 => true

/-- The level of HDO while HCLK is at the level `clock`: high impedance, which is `none`, while select is released.
The port changes HDO on the falling edge, and both ends sample on the rising edge: while HCLK is low the pin carries
the bit of the next clock, in mode 0 from the assertion of select on, and while it is high still the bit of the last
one (R162). Before any bit has gone out, HCLK high, the level is free (log 38). -/
def State.hdoPin (s : State) (p : Port) (clock : Bool) : Option Bool :=
  if (s.port p).selected then
    some
      (if clock then (s.port p).hdo.getLast?.getD (Config.undrivenLevel s.freeCount p)
      else (s.port p).nextOut)
  else none

/-- The assertion of select, when none is asserted: a transaction begins, and the status octet is taken (R162,
R163). -/
def HostPort.select (h : HostPort) (running : Bool) : HostPort :=
  match h.txn with
  | none => { h with txn := some (Txn.header (h.statusOctet running)), hdo := [] }
  | some _ => h

/-- The status block of a port; each STATUS reads a fresh free value (log 4). -/
def State.blockOf (s : State) (p : Port) (h : HostPort) : List Byte :=
  statusBlock p h (Config.leaseElapsed s.freeCount) s.ring.state s.ring.breakPos s.turnover.epoch

/-- The kind of the transaction in progress, once its header has named one. -/
def HostPort.kind (h : HostPort) : Option TxnKind := h.txn.bind Txn.kind

/-- Bits clocked at a port, its select asserted first. -/
def State.clocked (s : State) (p : Port) (bits : List Bool) : State :=
  let h := bits.foldl (HostPort.clockBit (s.blockOf p)) ((s.port p).select s.running)
  { s with
    ports := s.ports.set p h
    freeCount :=
      if (s.port p).kind = none ∧ h.kind = some .status then s.freeCount + 1 else s.freeCount }

/-- The release of a port's select: the bits of an octet that is not whole are dropped, and the transaction
completes, unless it is empty (R162). One completed while a lapse of the port is due takes its effect after the
lapse (R171). -/
def State.release (s : State) (p : Port) : State :=
  match (s.port p).txn with
  | none => s
  | some t =>
    let s := s.modPort p fun h => { h with txn := none }
    if t.kind = none then s
    else if (s.port p).lapseDue then s.modPort p fun h => { h with ended := h.ended ++ [t] }
    else s.finish p t

/-- `n` bits clocked while the port takes no transaction: bits of 0 go out, and nothing else happens (R176). A
select period that began while NRESET was low and lasts beyond its release stays so to its end (DESIGN CHOICE,
log 41). -/
def HostPort.clockVoid (h : HostPort) (n : Nat) (release : Bool) : HostPort :=
  { h with
    hdo := (if h.heldOver then h.hdo else []) ++ List.replicate n false
    heldOver := !release }

/-- One transaction command (log 15): select asserted when it is not, the bits clocked, and select released if
it is. A lapse of the port that is due and waits for no item is carried out first (R172; log 5). A command of a
kind that the transaction's header does not name is no event (log 1). -/
def State.transact (s : State) (k : TxnKind) (p : Port) (bits : List Bool) (release : Bool) : State :=
  if s.nresetLow || (s.port p).heldOver then s.modPort p fun h => h.clockVoid bits.length release
  else
    let s := s.grantLapse p
    let t := s.clocked p bits
    if (t.port p).kind = none ∨ (t.port p).kind = some k then if release then t.release p else t else s

/-! ## The commands -/

/-- REQUEST (R162, R164). -/
def execRequest (p : Port) (bits : List Bool) (release : Bool) (s : State) :
    Host.Outcome State Fault Refusal := .next (s.transact .request p bits release)

/-- FETCH (R162, R167). -/
def execFetch (p : Port) (bits : List Bool) (release : Bool) (s : State) :
    Host.Outcome State Fault Refusal := .next (s.transact .fetch p bits release)

/-- DRAIN (R157, R158). -/
def execDrain (p : Port) (bits : List Bool) (release : Bool) (s : State) :
    Host.Outcome State Fault Refusal := .next (s.transact .drain p bits release)

/-- POST (R145, R146). -/
def execPost (p : Port) (bits : List Bool) (release : Bool) (s : State) :
    Host.Outcome State Fault Refusal := .next (s.transact .post p bits release)

/-- STATUS (R168). -/
def execStatus (p : Port) (bits : List Bool) (release : Bool) (s : State) :
    Host.Outcome State Fault Refusal := .next (s.transact .status p bits release)

/-- TAKE (R181, R182). -/
def execTake (p : Port) (bits : List Bool) (release : Bool) (s : State) :
    Host.Outcome State Fault Refusal := .next (s.transact .take p bits release)

/-- DONE (R183). -/
def execServiceDone (p : Port) (bits : List Bool) (release : Bool) (s : State) :
    Host.Outcome State Fault Refusal := .next (s.transact .serviceDone p bits release)

/-- EVENTSET (R184). -/
def execEventset (p : Port) (bits : List Bool) (release : Bool) (s : State) :
    Host.Outcome State Fault Refusal := .next (s.transact .eventset p bits release)

/-- UNKNOWN_TRANSACTION (R162): every code of unknown kind is served alike. -/
def execUnknownTransaction (_code : BitVec 4) (p : Port) (bits : List Bool) (release : Bool) (s : State) :
    Host.Outcome State Fault Refusal := .next (s.transact .unknown p bits release)

end Sys2Proof.Machine
end

