-- ==== Sys2Proof/Machine/Returns.lean ====
section
/-! DEFINITION. Return evaluation: classes, the Ring Engine's counters, extraction and delivery (chapters 5
and 8). -/

namespace Sys2Proof.Machine

/-! ## Classes (R96, R97) -/

/-- The hop count of a return with a good header check, kind HUB and the awaited cycle's count (R99). -/
def hopOf (r : CycleRecord) (octets : List Byte) : Option Nat :=
  if headerGood octets && !isBeacon octets && countOf octets == r.count then some (numAt octets 5)
  else none

/-- The break position that a good beacon gives: its origin (R98; an origin that is no position, log 8). -/
def beaconOrigin (octets : List Byte) : Fin 17 :=
  match posOf (numAt octets 6) with
  | some p => ⟨posNum p, by have := p.isLt; unfold posNum; omega⟩
  | none => Config.strayOrigin (octetAt octets 6)

/-- The class of a cycle that arrives while a cycle's return is awaited (R97). -/
def classify (r : CycleRecord) (octets : List Byte) : ReturnClass :=
  if goodBeacon octets then .miss (some (beaconOrigin octets))
  else if (hopOf r octets).isSome && payloadGood octets then .good octets
  else .damaged octets

/-- A mark that arrives `d` bit cells after a cycle's own was sent lies in the cycle's window (R96). -/
def Ring.accepts (r : Ring) (d : Nat) : Bool :=
  match r.latency with
  | some l => decide (l ≤ d + Config.driftLimit ∧ d ≤ l + Config.driftLimit)
  | none => decide (d ≤ Config.openWindow)

/-- A mark in the window is accepted with drift follow, and not at once (R96). -/
def Ring.drifts (r : Ring) (d : Nat) : Bool :=
  match r.latency with
  | some l => !decide (l ≤ d + Config.driftFree ∧ d ≤ l + Config.driftFree)
  | none => false

/-- A hub cycle that arrives late: its header check is good and its count is not the awaited cycle's, but that
of a cycle which a beacon has concluded (R96; log 32). -/
def Ring.late (r : Ring) (c : CycleRecord) (octets : List Byte) : Bool :=
  headerGood octets && !isBeacon octets && countOf octets != c.count &&
    r.beaconed.contains (countOf octets)

/-- What arrives concludes the return of a cycle: a good beacon at once, and any other mark when it lies in the
cycle's window and is not the late mark of a cycle that a beacon concluded (R96). -/
def Ring.takes (r : Ring) (c : CycleRecord) (cell : Nat) (octets : List Byte) : Bool :=
  goodBeacon octets ||
    decide (c.start ≤ cell) && r.accepts (cell - c.start) && !r.late c octets

/-- The counts of the cycles that a beacon concluded, after a return of the class (R96). -/
def Ring.beaconedAfter (r : Ring) (c : CycleRecord) : ReturnClass → List CycleCount
  | .miss (some _) => c.count :: r.beaconed
  | .miss none | .good _ | .damaged _ => r.beaconed

/-! ## The Ring Engine (R98, R99, R104) -/

/-- The break position after a miss (R98). -/
def Ring.markBreak (r : Ring) (origin : Option (Fin 17)) : Ring :=
  { r with
    breakPos := match origin with
      | some o => o
      | none => if r.breakPos = 0 then 16 else r.breakPos }

/-- A miss in RUNNING: counted, and BROKEN at the limit (R98). -/
def State.missInRunning (s : State) (origin : Option (Fin 17)) : State :=
  let s : State := { s with ring := { s.ring.markBreak origin with misses := s.ring.misses + 1 } }
  if s.ring.missLimit ≤ s.ring.misses then (s.leaveRunning true).enterRing .broken .misses else s

/-- A good or damaged return in RUNNING: the miss count and the break position become 0, and the hop count
is compared with n (R98, R99). -/
def State.returnInRunning (s : State) (hop : Option Nat) : State :=
  let s : State := { s with ring := { s.ring with misses := 0, breakPos := 0 } }
  match hop with
  | none => s
  | some h =>
    if h = s.nodes.count.val then { s with ring := { s.ring with shape := 0 } }
    else
      let s : State := { s with ring := { s.ring with shape := s.ring.shape + 1 } }
      if 2 ≤ s.ring.shape then s.halt .shape else s

/-- A good return in BROKEN: the heal run grows, and at the heal count the ring heals or halts (R104). -/
def State.goodInBroken (s : State) (hop : Nat) : State :=
  let s : State := { s with
    ring :=
      { s.ring with
        heal := s.ring.heal + 1, healOdd := s.ring.healOdd || hop != s.nodes.count.val } }
  if s.ring.healCount ≤ s.ring.heal then
    if s.ring.healOdd then s.halt .shape else (s.enterRing .running .healed).beginVerification
  else s

/-- The heal run broken off (R104). -/
def Ring.noHeal (r : Ring) : Ring := { r with heal := 0, healOdd := false }

/-- The Ring Engine applies a return to its counters and to the ring state (R97, R98, R99, R103, R104). -/
def State.engine (s : State) (r : CycleRecord) (cls : ReturnClass) : State :=
  match s.ring.state with
  | .running =>
    match cls with
    | .miss origin => s.missInRunning origin
    | .good octets | .damaged octets => s.returnInRunning (hopOf r octets)
  | .broken =>
    match cls with
    | .miss origin => { s with ring := (s.ring.markBreak origin).noHeal }
    | .damaged _ => { s with ring := s.ring.noHeal }
    | .good octets => s.goodInBroken (numAt octets 5)
  | .off | .quieting | .numbering | .identifying | .halted => s

/-! ## Extraction and delivery (R152 to R156) -/

/-- The record made of a slot of a good or damaged return, but for its gap count (R153, R154). -/
def recordOf (r : CycleRecord) (cls : ReturnClass) (pl : Placement) : Option Record :=
  let plain (v : Validity) : Record :=
    { stream := pl.stream, validity := v, sequence := 0, cycle := r.count, gap := 0, payload := [] }
  match cls with
  | .miss _ => none
  | .damaged _ => some (plain .damaged)
  | .good octets =>
    let status := octetAt octets (24 + pl.offset)
    if slotTag status = epochTag r.epoch then
      some
        { plain (slotValidity status) with
          sequence := slotSequence status
          payload :=
            if slotValidity status = .void then []
            else (octets.drop (25 + pl.offset)).take (pl.length - 1) }
    else some (plain .foreign)

/-- A gap counter one higher, stopping at 255 (R155). -/
def raiseGap (n : Nat) : Nat := min 255 (n + 1)

/-- The gap counter of a stream raised. -/
def HostPort.countGap (h : HostPort) (id : StreamId) : HostPort :=
  { h with gaps := h.gaps.modify id raiseGap }

/-- A record appended with the gap count of its stream, or dropped for lack of room (R156, R185). -/
def HostPort.deliver (h : HostPort) (x : Record) : HostPort :=
  if occupancy h.delivery + x.size ≤ Config.deliveryRoom then
    let h' : HostPort := { h with
      delivery := h.delivery ++ [{ x with gap := h.gaps.get x.stream }]
      gaps := h.gaps.set x.stream 0 }
    h'.raiseIf (decide (h'.events.threshold ≤ occupancy h'.delivery)) .delivery
  else (h.countGap x.stream).raise .overflow

/-- What a placement's return gives one listed port: a record or a gap, and nothing while the port is not
ATTACHED (R152, R153). -/
def HostPort.receive (h : HostPort) (r : CycleRecord) (cls : ReturnClass) (pl : Placement) : HostPort :=
  if h.attached then
    match recordOf r cls pl with
    | some x => h.deliver x
    | none => h.countGap pl.stream
  else h

/-- The plan and delivery table whose epoch label is an epoch: the ones in force, or the retired ones (R34,
R152). -/
def State.planFor (s : State) (epoch : Epoch) : Option (Plan × DeliveryTable) :=
  if s.plans.inForce.epoch = epoch then some (s.plans.inForce, s.mover.delivery)
  else
    match s.plans.retired, s.mover.retiredDelivery with
    | some plan, some t => if plan.epoch = epoch then some (plan, t) else none
    | _, _ => none

/-- What a return gives: for every placement of the cycle's page in ascending offset, one record or gap for
every listed port in the table's order (R152). -/
def deliveriesOf (plan : Plan) (t : DeliveryTable) (count : CycleCount) : List (Port × Placement) :=
  (plan.layouts.get (pageOf count)).flatMap fun pl => (listedPorts t pl.stream).map fun p => (p, pl)

/-- What is clocked of DRAIN transactions while a return is being handled (R156). -/
def State.drainParts (s : State) (l : List DrainPart) : State :=
  l.foldl (fun s d => s.transact .drain d.port d.bits d.release) s

/-- The records of one return made one at a time, with what is drained before each of them (R152, R156). -/
def State.handle (r : CycleRecord) (cls : ReturnClass) :
    List (Port × Placement) → List (List DrainPart) → State → State
  | [], _, s => s
  | x :: xs, [], s => State.handle r cls xs [] (s.modPort x.1 fun h => h.receive r cls x.2)
  | x :: xs, d :: ds, s =>
    State.handle r cls xs ds ((s.drainParts d).modPort x.1 fun h => h.receive r cls x.2)

/-- The Slot Mover at a return (R152). -/
def State.extract (s : State) (r : CycleRecord) (cls : ReturnClass) (drains : List (List DrainPart)) :
    State :=
  match s.planFor r.epoch with
  | none => s
  | some (plan, t) => State.handle r cls (deliveriesOf plan t r.count) drains s

/-- The retired plan discarded once no return of a cycle sent under it is awaited (R34, R151). -/
def State.discardRetired (s : State) : State :=
  let keep := match s.plans.retired with
    | some plan => s.ring.awaits plan.epoch
    | none => false
  { s with
    plans := { s.plans with retired := if keep then s.plans.retired else none }
    mover := { s.mover with retiredDelivery := if keep then s.mover.retiredDelivery else none } }

/-! ## One return -/

/-- The return of the oldest awaited cycle evaluated: its record released, then the Ring Engine, the Control
Channel and the Slot Mover (R97; log 16), the retired plan (R34), and the work list (R78, R79). -/
def State.evaluate (s : State) (r : CycleRecord) (cls : ReturnClass) (delay : Nat)
    (drains : List (List DrainPart)) : State :=
  let s : State := { s with
    ring := { s.ring with sent := s.ring.sent.tail, beaconed := s.ring.beaconedAfter r cls } }
  ((((s.engine r cls).channel r cls delay).extract r cls drains).discardRetired).advanceWork

/-- The cycle carries the outstanding NUMBER attempt. -/
def State.numbers (s : State) (r : CycleRecord) : Bool :=
  match s.control.exchange, s.control.attempt with
  | some x, some a => x.message.position.isNone && r.awaits && a.count == r.count
  | _, _ => false

/-- The latency after an accepted mark: followed when the mark drifted and the return proves to be the
awaited cycle's own (R96). The return of a NUMBER attempt follows nothing: it sets L when the numbering
succeeds (R132), and L keeps its earlier value when it fails (R133; log 26). -/
def State.follow (s : State) (r : CycleRecord) (octets : List Byte) (d : Nat) : State :=
  if s.ring.drifts d && (hopOf r octets).isSome && !s.numbers r then
    { s with ring := { s.ring with latency := some d } }
  else s

/-! ## The commands -/

/-- RETURN_EVALUATION (R96, R97). A mark outside the window of the oldest awaited cycle is not evaluated
(log 7), but a good beacon concludes that cycle wherever it comes. -/
def execReturnEvaluation (cell : Nat) (arrival : Arrival) (s : State) :
    Host.Outcome State Fault Refusal :=
  .next
    (match s.ring.sent with
    | [] => s
    | r :: _ =>
      let d := cell - r.start
      if s.ring.takes r cell arrival.octets then
        (s.follow r arrival.octets d).evaluate r (classify r arrival.octets) d arrival.drains
      else s)

/-- RETURN_WINDOW_EXPIRY (R96): the oldest awaited cycle's return is a miss. -/
def execReturnWindowExpiry (s : State) : Host.Outcome State Fault Refusal :=
  .next
    (match s.ring.sent with
    | [] => s
    | r :: _ => s.evaluate r (.miss none) 0 [])

/-- BEACON_RECEIVED (R96): a good beacon concludes the oldest awaited cycle as a miss with its origin. -/
def execBeaconReceived (octets : List Byte) (s : State) : Host.Outcome State Fault Refusal :=
  .next
    (match s.ring.sent with
    | [] => s
    | r :: _ =>
      if goodBeacon octets then s.evaluate r (.miss (some (beaconOrigin octets))) 0 []
      else s)

end Sys2Proof.Machine
end

