-- ==== Sys2Proof/Machine/Sessions.lean ====
section
/-! DEFINITION. Lease expiry, lapse, and the resets of the supply and the pin (chapter 9). -/

namespace Sys2Proof.Machine

/-- A lease expiry: the timer stops and the lapse becomes due (R171). -/
def HostPort.expire (h : HostPort) : HostPort :=
  if h.leaseTimer.isSome then { h with leaseTimer := none, lapseDue := true } else h

/-- LEASE_EXPIRY (R171): the lapse becomes due, and its claim is granted at once when no item of the port is
in processing (R43; log 5). -/
def execLeaseExpiry (p : Port) (s : State) : Host.Outcome State Fault Refusal :=
  .next ((s.modPort p HostPort.expire).grantLapse p)

/-- LAPSE (R172): a lapse that waited for the port's item. -/
def execLapse (p : Port) (s : State) : Host.Outcome State Fault Refusal := .next (s.grantLapse p)

/-- POWER_ON_RESET (R176); the part stays in reset while NRESET is low. -/
def execPowerOnReset (straps : BitVec 2) (nresetLow : Bool) (s : State) :
    Host.Outcome State Fault Refusal :=
  .next (s.resetWith .power straps nresetLow)

/-- PIN_RESET (R176). -/
def execPinReset (straps : BitVec 2) (s : State) : Host.Outcome State Fault Refusal :=
  .next (s.resetWith .pin straps true)

/-- NRESET_RELEASE (R176). -/
def execNresetRelease (s : State) : Host.Outcome State Fault Refusal :=
  .next { s with nresetLow := false }

end Sys2Proof.Machine
end

