-- ==== Sys2Proof/Machine/Dispatch.lean ====
section
/-! DEFINITION. The meaning of each command: one arm per constructor of Instr. -/

namespace Sys2Proof.Machine

/-- What a command does to everything but the queue of waiting commands. -/
def exec (i : Instr) (s : State) : Host.Outcome State Fault Refusal :=
  match i with
  | .request p bits release => Sys2Proof.Machine.execRequest p bits release s
  | .fetch p bits release => Sys2Proof.Machine.execFetch p bits release s
  | .drain p bits release => Sys2Proof.Machine.execDrain p bits release s
  | .post p bits release => Sys2Proof.Machine.execPost p bits release s
  | .status p bits release => Sys2Proof.Machine.execStatus p bits release s
  | .take p bits release => Sys2Proof.Machine.execTake p bits release s
  | .serviceDone p bits release => Sys2Proof.Machine.execServiceDone p bits release s
  | .eventset p bits release => Sys2Proof.Machine.execEventset p bits release s
  | .unknownTransaction code p bits release => Sys2Proof.Machine.execUnknownTransaction code p bits release s
  | .openStream => Sys2Proof.Machine.execOpenStream s
  | .alter => Sys2Proof.Machine.execAlter s
  | .close => Sys2Proof.Machine.execClose s
  | .subscribe => Sys2Proof.Machine.execSubscribe s
  | .unsubscribe => Sys2Proof.Machine.execUnsubscribe s
  | .handover => Sys2Proof.Machine.execHandover s
  | .streamQuery => Sys2Proof.Machine.execStreamQuery s
  | .occupancyQuery => Sys2Proof.Machine.execOccupancyQuery s
  | .nodeQuery => Sys2Proof.Machine.execNodeQuery s
  | .flush => Sys2Proof.Machine.execFlush s
  | .attach => Sys2Proof.Machine.execAttach s
  | .detach => Sys2Proof.Machine.execDetach s
  | .setQuota => Sys2Proof.Machine.execSetQuota s
  | .ringStart => Sys2Proof.Machine.execRingStart s
  | .ringStop => Sys2Proof.Machine.execRingStop s
  | .ringRestart => Sys2Proof.Machine.execRingRestart s
  | .setRingParameters => Sys2Proof.Machine.execSetRingParameters s
  | .deviceReset straps => Sys2Proof.Machine.execDeviceReset straps s
  | .portEntry => Sys2Proof.Machine.execPortEntry s
  | .nodeEntryLost => Sys2Proof.Machine.execNodeEntryLost s
  | .nodeEntryNodeChanged => Sys2Proof.Machine.execNodeEntryNodeChanged s
  | .gatherCounterExpiry => Sys2Proof.Machine.execGatherCounterExpiry s
  | .freeze => Sys2Proof.Machine.execFreeze s
  | .reconciliation => Sys2Proof.Machine.execReconciliation s
  | .hubCycle => Sys2Proof.Machine.execHubCycle s
  | .quietCyclesEnd => Sys2Proof.Machine.execQuietCyclesEnd s
  | .returnEvaluation cell octets => Sys2Proof.Machine.execReturnEvaluation cell octets s
  | .returnWindowExpiry => Sys2Proof.Machine.execReturnWindowExpiry s
  | .beaconReceived octets => Sys2Proof.Machine.execBeaconReceived octets s
  | .leaseExpiry p => Sys2Proof.Machine.execLeaseExpiry p s
  | .lapse p => Sys2Proof.Machine.execLapse p s
  | .powerOnReset straps low => Sys2Proof.Machine.execPowerOnReset straps low s
  | .pinReset straps => Sys2Proof.Machine.execPinReset straps s
  | .nresetRelease => Sys2Proof.Machine.execNresetRelease s

end Sys2Proof.Machine
end

