-- ==== Sys2Proof/Machine/Line.lean ====
section
/-! DEFINITION. The line of the ring: the bit cells of a cycle, their transitions and levels, the cycle mark,
and how a receiver finds a cycle (R87). -/

namespace Sys2Proof.Machine

/-! ## Bit cells -/

/-- One bit cell on the line: whether the line has a transition at its start, and one at its middle. -/
structure Cell where
  start  : Bool
  middle : Bool
deriving DecidableEq, Repr

/-- A cell that carries a bit: a transition at its start, and one at its middle for a 1 (R87). -/
def dataCell (b : Bool) : Cell := { start := true, middle := b }

/-- An idle cell carries a 0. -/
def idleCell : Cell := dataCell false

/-- The cells of octets, each most significant bit first (R186). -/
def dataCells (l : List Byte) : List Cell := (l.flatMap octetBits).map dataCell

/-- The cells of the cycle mark: 1, 1, 1, 1, 0, 0, 0, 0 and 0, 0, 0, 0, 1, 1, 1, 1, where the last cell of the
first octet and the first cell of the second have no transition at their start (R87). -/
def markCells : List Cell :=
  [dataCell true, dataCell true, dataCell true, dataCell true,
   dataCell false, dataCell false, dataCell false, { start := false, middle := false },
   { start := false, middle := false }, dataCell false, dataCell false, dataCell false,
   dataCell true, dataCell true, dataCell true, dataCell true]

/-- The cells of a whole cycle: the mark, and then the cells of the octets after the mark's two. The gap's
octets of 0 are idle cells (R87, R88). -/
def cycleCells (c : List Byte) : List Cell := markCells ++ dataCells (c.drop 2)

/-- What the hub sends on RGO for its last cycle: the cycle's cells, and in OFF idle cells without a mark
(R89). From a Ring Start until its first cycle is sent no rule says what RGO carries: idle cells go on (DESIGN
CHOICE, log 18). -/
def Ring.line (r : Ring) : List Cell :=
  if r.state = .off ∨ r.rgo = [] then List.replicate Config.cellsPerCycle idleCell else cycleCells r.rgo

/-- The REFCK periods of one bit cell at each cycle rate (R87). -/
def CycleRate.refckPerCell : CycleRate → Nat
  | .r4000 => 4
  | .r8000 => 2
  | .r16000 => 1

/-! ## Levels -/

/-- The level after a place where the line may have a transition. -/
def flip (transition level : Bool) : Bool := transition != level

/-- The levels of the line in the two halves of each cell, from the level before the first cell on. -/
def levelsOf : Bool → List Cell → List Bool
  | _, [] => []
  | l, c :: cs =>
    flip c.start l :: flip c.middle (flip c.start l) :: levelsOf (flip c.middle (flip c.start l)) cs

/-- The cells read back from the levels of their halves. -/
def cellsOf : Bool → List Bool → List Cell
  | l, a :: b :: rest => { start := l != a, middle := a != b } :: cellsOf b rest
  | _, [_] | _, [] => []

/-! ## The receiver -/

/-- The cell at which the first mark that lies whole on a line begins, seven cells before a pair of cells
that have no transition at their start; `n` is the number of the first cell given (R87). -/
def markAt : Nat → List Cell → Option Nat
  | n, c :: d :: rest =>
    if c.start = false ∧ d.start = false ∧ 7 ≤ n then some (n - 7) else markAt (n + 1) (d :: rest)
  | _, [_] | _, [] => none

/-- The first `n` octets of a line, eight cells each, a cell's bit being its middle transition (R87). -/
def octetsFrom : Nat → List Cell → List Byte
  | 0, _ => []
  | n + 1, l => octetOf ((l.take 8).map Cell.middle) :: octetsFrom n (l.drop 8)

/-- The cycle that a receiver finds on a line: the cell at which its mark begins, and the octets counted from
there (R87). -/
def receiveCycle (l : List Cell) : Option (Nat × List Byte) :=
  (markAt 0 l).map fun k => (k, octetsFrom 256 (l.drop k))

/-- The command that a mark on RGI comes to, when the line's first cell is bit cell `first`: a good beacon is
received at once, and any other cycle is sought in the return windows (R96). -/
def heardOn (first : Nat) (l : List Cell) (drains : List (List DrainPart)) : Option Instr :=
  (receiveCycle l).map fun x =>
    if goodBeacon x.2 then .beaconReceived x.2 else .returnEvaluation (first + x.1) ⟨x.2, drains⟩

end Sys2Proof.Machine
end

