-- ==== Sys2Proof/Machine/Node.lean ====
section
/-! DEFINITION. The ring protocol at a Fenjar ring node: what a node does with a cycle that passes it
(chapter 5, section 5.3, and chapter 6). Nodes are other chips than the FJ-416: nothing here is part of
State (log 22). -/

namespace Sys2Proof.Machine

/-- What a node sends for one stream it is the source of: `fresh` tells a sample not yet written from the
last one written again (R91, R150). R91 and R150 do not say whether a node's own sequence is one for the node or
one for each stream it sources; it is one for each stream (DESIGN CHOICE, log 33). -/
structure NodeOutput where
  fresh    : Bool
  sequence : BitVec 4
  sample   : List Byte
deriving DecidableEq, Repr

/-- A pending plan (R92): the parts received so far are 1 to `received`. -/
structure PendingPlan where
  epoch    : Epoch
  parts    : Nat
  received : Nat
  taps     : List Tap
deriving DecidableEq, Repr

/-- A ring node. `adopted` is the target epoch and part count of the TAPLOAD that completed the plan it
last adopted, none when a KEEP did or when it remembers none (R92, R95); `outputs` has a sequence for each
stream (DESIGN CHOICE, log 33); `silent` counts the cycle periods in which no mark came (R94). -/
structure NodeChip where
  identity  : Identity
  position  : Option Pos
  held      : Option Epoch
  taps      : List Tap
  pending   : Option PendingPlan
  adopted   : Option (Epoch × Nat)
  /-- the pending plan was built by TAPLOAD messages, and not by a KEEP -/
  byLoad    : Bool
  outputs   : Table NodeOutput 48
  silent    : Nat
  beaconing : Bool
deriving DecidableEq, Repr

/-- What a node has to send before it has had any sample: R91 and R150 give FRESH for a new sample and HELD for
the last one, and nothing for none, so flag, sequence and sample are free values (log 27). -/
def NodeOutput.first (id : StreamId) : NodeOutput :=
  { fresh := (Config.firstOutput id).1, sequence := (Config.firstOutput id).2.1
    sample := (Config.firstOutput id).2.2 }

/-- A node that has just been powered up (R95); what it would send before its first sample is free (log 27). -/
def NodeChip.powered (i : Identity) : NodeChip :=
  { identity := i, position := none, held := none, taps := [], pending := none, adopted := none,
    byLoad := false, outputs := Table.tabulate NodeOutput.first,
    silent := 0, beaconing := false }

/-- The plan is complete: its last part has been received (R92). -/
def PendingPlan.complete (p : PendingPlan) : Bool := p.received == p.parts

/-! ## Reading the cycle (R187, R190) -/

/-- The epoch a cycle carries. -/
def epochOf (c : List Byte) : Epoch := (octetAt c 2).extractLsb' 0 4

/-- The TURNOVER flag of a cycle. -/
def turnoverOf (c : List Byte) : Bool := (octetAt c 2).getLsbD 6

/-- The page of a cycle. -/
def cyclePage (c : List Byte) : Page := ⟨(countOf c).toNat % 8, Nat.mod_lt _ (by decide)⟩

/-- A tap record read from three octets (R190); none when its stream id is 48 to 63, and as it stands when its
offset is above 222 or its length is not 2 to 33, for which no rule says what a node does (DESIGN CHOICE, log 34). -/
def tapOf (a b c : Byte) : Option Tap :=
  let w : BitVec 24 := a ++ b ++ c
  if h : (w.extractLsb' 0 6).toNat < 48 then
    some
      { page := ⟨(w.extractLsb' 21 3).toNat, (w.extractLsb' 21 3).isLt⟩
        role := if w.getLsbD 20 then .write else .read
        offset := (w.extractLsb' 12 8).toNat
        length := (w.extractLsb' 6 6).toNat
        stream := ⟨(w.extractLsb' 0 6).toNat, h⟩ }
  else none

/-- The tap records of a TAPLOAD's control field (R190): as many as the record count says, and three when it says
more, for which there is no rule; records that `tapOf` does not read are left out (DESIGN CHOICE, log 34). -/
def tapsOf (f : List Byte) : List Tap :=
  (List.range (min 3 (numAt f 6))).filterMap fun i =>
    tapOf (octetAt f (7 + 3 * i)) (octetAt f (8 + 3 * i)) (octetAt f (9 + 3 * i))

/-! ## The pending plan (R92, R93) -/

/-- The pending plan after a TAPLOAD, and whether the node answers LOADACK rather than NAK (R92). -/
def NodeChip.load (n : NodeChip) (epoch : Epoch) (part parts : Nat) (taps : List Tap) :
    Option PendingPlan × Bool :=
  if part = 1 then
    if taps.length ≤ n.identity.capacity then
      (some { epoch := epoch, parts := parts, received := 1, taps := taps }, true)
    else (none, false)
  else
    match n.pending with
    | some p =>
      if p.epoch = epoch ∧ p.parts = parts ∧ part = p.received + 1 then
        if (p.taps ++ taps).length ≤ n.identity.capacity then
          (some { p with received := part, taps := p.taps ++ taps }, true)
        else (none, false)
      else if p.epoch = epoch ∧ p.parts = parts ∧ 2 ≤ part ∧ part ≤ p.received then (some p, true)
      else (none, false)
    | none => (none, decide (2 ≤ part ∧ part = parts ∧ n.adopted = some (epoch, parts)))

/-- A complete pending plan tested at a good hub cycle: adopted, discarded or kept (R93). -/
def NodeChip.adopt (n : NodeChip) (epoch : Epoch) (turnover : Bool) : NodeChip :=
  match n.pending with
  | none => n
  | some p =>
    if p.complete then
      if p.epoch = epoch then
        { n with
          taps := p.taps, held := some p.epoch, pending := none
          adopted := if n.byLoad then some (p.epoch, p.parts) else none }
      else if turnover then n
      else { n with pending := none }
    else n

/-! ## The control field (R95, R114, R118, R120) -/

/-- The held epoch's octet and what a reply looks like. -/
def replyField (kind : Byte) (p : Pos) (sequence : Byte) (body : List Byte) : List Byte :=
  kind :: octet (posNum p) :: sequence :: padTo 13 body

/-- What QUIET does to a node (R95). -/
def NodeChip.quiet (n : NodeChip) : NodeChip :=
  { n with position := none, held := none, taps := [], pending := none, adopted := none, byLoad := false }

/-- What NUMBER does to a node (R118). R118 gives the counters 1 to 255; with a counter of 0 the node is left with
no position, as with one above 15 (DESIGN CHOICE, log 36). -/
def NodeChip.number (n : NodeChip) (counter : Nat) (epoch : Epoch) : NodeChip :=
  { n with
    position := posOf counter
    held := some (n.held.getD epoch)
    taps := if n.held.isNone then [] else n.taps }

/-- What KEEP does to a node (R92). R92 has the plan complete and names no parts of it; it is held as part 1 of 1
(DESIGN CHOICE, log 35). -/
def NodeChip.keep (n : NodeChip) (epoch : Epoch) : NodeChip :=
  { n with pending := some { epoch := epoch, parts := 1, received := 1, taps := n.taps }, byLoad := false }

/-- A control field acted on by the node it addresses: the node after it and the reply (R92, R114, R120).
A kind that is no addressed message passes unchanged (R186). Of an epoch octet above 15 the node takes the low four
bits, and its reply carries the whole octet (DESIGN CHOICE, log 34). -/
def NodeChip.answer (n : NodeChip) (p : Pos) (f : List Byte) : NodeChip × List Byte :=
  if octetAt f 0 = 0x10 then
    (n, replyField 0x20 p (octetAt f 2)
      ([n.identity.cls, n.identity.revision] ++ octets32 n.identity.serial ++
        [octet n.identity.capacity, heldOctet n.held]))
  else if octetAt f 0 = 0x11 then
    let l := n.load ((octetAt f 3).extractLsb' 0 4) (numAt f 4) (numAt f 5) (tapsOf f)
    ({ n with pending := l.1, byLoad := if l.1.isSome then true else n.byLoad },
      replyField (if l.2 then 0x21 else 0x23) p (octetAt f 2) [octetAt f 3, octetAt f 4])
  else if octetAt f 0 = 0x12 then
    (n.keep ((octetAt f 3).extractLsb' 0 4), replyField 0x22 p (octetAt f 2) [octetAt f 3])
  else (n, f)

/-- The control field of a good hub cycle acted on (R114). Of an epoch octet above 15 in a NUMBER the node takes the
low four bits (DESIGN CHOICE, log 34), and a counter of 0 goes on as 1 (DESIGN CHOICE, log 36). -/
def NodeChip.control (n : NodeChip) (f : List Byte) : NodeChip × List Byte :=
  if octetAt f 0 = 0x01 then
    (n.number (numAt f 3) ((octetAt f 4).extractLsb' 0 4),
      f.set 3 (octet (min 255 (numAt f 3 + 1))))
  else if octetAt f 0 = 0x02 then (n.quiet, f)
  else
    match n.position with
    | some p => if numAt f 1 = posNum p then n.answer p f else (n, f)
    | none => (n, f)

/-! ## The taps (R91) -/

/-- The `n` octets of sample that a slot carries: the node's sample when it is that long. For one of another length,
as after the stream was resized, R91 and R150 give no octets: they are free (DESIGN CHOICE, log 39). -/
def NodeOutput.payload (o : NodeOutput) (n : Nat) : List Byte :=
  padTo n (if o.sample.length = n then o.sample else Config.resizedSample o.sample n)

/-- The slot a node writes: FRESH for a new sample and HELD for its last one again, its own sequence, the
tag of its held epoch, and the sample (R91, R150; a sample of another length than the slot's, log 39). -/
def NodeOutput.slot (o : NodeOutput) (tag : BitVec 2) (length : Nat) : List Byte :=
  (if o.fresh then slotStatus 1 (o.sequence + 1) tag else slotStatus 3 o.sequence tag) ::
    o.payload (length - 1)

/-- An output after its slot was written: its sequence, the stream's own (DESIGN CHOICE, log 33), is raised with
a FRESH sample (R150). -/
def NodeOutput.written (o : NodeOutput) : NodeOutput :=
  if o.fresh then { o with fresh := false, sequence := o.sequence + 1 } else o

/-- The held taps of a page with a role. -/
def NodeChip.tapsOn (n : NodeChip) (k : Page) (role : TapRole) : List Tap :=
  n.taps.filter fun t => t.page == k && t.role == role

/-- Octets written over others from an offset on. -/
def overwrite (l : List Byte) (offset : Nat) (b : List Byte) : List Byte :=
  l.take offset ++ b ++ l.drop (offset + b.length)

/-- The WRITE taps that a node applies to a cycle: none unless the cycle's epoch is its held epoch (R91). -/
def NodeChip.writes (n : NodeChip) (c : List Byte) : List Tap :=
  if n.held = some (epochOf c) then n.tapsOn (cyclePage c) .write else []

/-- The payload area after a node's WRITE taps, with its outputs. -/
def NodeChip.write (n : NodeChip) (c : List Byte) : NodeChip × List Byte :=
  (n.writes c).foldl
    (fun x t =>
      ({ x.1 with outputs := x.1.outputs.modify t.stream NodeOutput.written },
        overwrite x.2 t.offset
          ((x.1.outputs.get t.stream).slot (epochTag ((n.held).getD 0)) t.length)))
    (n, payloadOf c)

/-- What a READ tap copies from a passing hub cycle: the slot's octets, and whether the node treats them as
damaged (R91). -/
def NodeChip.reads (n : NodeChip) (c : List Byte) : List (Tap × List Byte × Bool) :=
  (n.tapsOn (cyclePage c) .read).map fun t =>
    (t, ((payloadOf c).drop t.offset).take t.length, !payloadGood c)

/-! ## A cycle passes (R90, R94) -/

/-- The payload check a node forwards: as it arrived when it wrote nothing; computed again when it wrote,
with every bit inverted when the arriving one was bad (R91). -/
def forwardedCheck (c payload : List Byte) (wrote : Bool) : List Byte :=
  if wrote then octets16 (if payloadGood c then crc16 payload else ~~~ crc16 payload)
  else [octetAt c 248, octetAt c 249]

/-- A cycle with a good header check as a node forwards it: the hop count raised, stopping at 255, and the
header check computed again (R90). -/
def forwarded (c field payload check : List Byte) : List Byte :=
  let body := [octetAt c 2, octetAt c 3, octetAt c 4, octet (min 255 (numAt c 5 + 1)), octetAt c 6] ++ field
  c.take 2 ++ body ++ [crc8 body] ++ payload ++ check ++ c.drop 250

/-- A mark reaches a node: it is not silent, and its own beaconing ends (R94). -/
def NodeChip.marked (n : NodeChip) : NodeChip := { n with silent := 0, beaconing := false }

/-- A good hub cycle at a node: the pending plan is tested, the control field acted on, then the taps (R91,
R93, R114). -/
def NodeChip.hubCycle (n : NodeChip) (c : List Byte) : NodeChip × List Byte :=
  let n := n.marked.adopt (epochOf c) (turnoverOf c)
  let ctl := n.control (controlOf c)
  let w := ctl.1.write c
  (w.1, forwarded c ctl.2 w.2 (forwardedCheck c w.2 (!(ctl.1.writes c).isEmpty)))

/-- What a node's READ taps copy when a cycle passes: under the plan it holds once the pending plan was
tested and the control field acted on, and only in a hub cycle with a good header check (R90, R91, R93). -/
def NodeChip.copies (n : NodeChip) (c : List Byte) : List (Tap × List Byte × Bool) :=
  if headerGood c && !isBeacon c then
    ((n.marked.adopt (epochOf c) (turnoverOf c)).control (controlOf c)).1.reads c
  else []

/-- A cycle passes a node: the node after it, and what it forwards (R90). -/
def NodeChip.pass (n : NodeChip) (c : List Byte) : NodeChip × List Byte :=
  if headerGood c then
    if isBeacon c then
      (n.marked, forwarded c (controlOf c) (payloadOf c) [octetAt c 248, octetAt c 249])
    else n.hubCycle c
  else (n.marked, c)

/-- A cycle passes the nodes of a ring in order. -/
def passAll : List NodeChip → List Byte → List NodeChip × List Byte
  | [], c => ([], c)
  | n :: ns, c =>
    let r := passAll ns (n.pass c).2
    ((n.pass c).1 :: r.1, r.2)

/-- A cycle period in which no mark reached a node: a node that holds a position beacons after two (R94). -/
def NodeChip.quietPeriod (n : NodeChip) : NodeChip :=
  { n with
    silent := n.silent + 1
    beaconing := n.beaconing || (n.position.isSome && decide (2 ≤ n.silent + 1)) }

/-- The beacon a beaconing node sends in a cycle period; a held epoch of none is sent as 0 (R94; log 22). -/
def NodeChip.beacon (n : NodeChip) : Option (List Byte) :=
  match n.beaconing, n.position with
  | true, some p =>
    some (cycleOctets true false (n.held.getD 0) 0 0 (octet (posNum p)) fieldNone
      (zeros Config.payloadArea))
  | _, _ => none

end Sys2Proof.Machine
end

