-- ==== Sys2Proof/Safety.lean ====
section
/-! DEFINITION. What counts as a sound state of the part, and the words in which claims speak: request
frames as a host writes them, the commands of requests, transactions on the line, and what an answer leaves. -/

namespace Sys2Proof.Machine

/-! ## Sound states -/

/-- A port's queues and its service stack are within their sizes, and a transaction in progress holds fewer than
eight bits of the octet that is not yet whole (R41, R161, R162, R177). -/
def HostPort.bounded (h : HostPort) : Prop :=
  h.requests.length ≤ 4 ∧ h.responses.length + (if h.reserved then 1 else 0) ≤ 8 ∧
    occupancy h.delivery ≤ 4096 ∧ h.events.stack.length ≤ 2 ∧ ∀ x, h.txn = some x → x.bits.length < 8

/-- The queues of every port are within their sizes, and no two entries of the internal edit list are for
one port or one position (R57). -/
def State.bounded (s : State) : Prop :=
  (∀ p, (s.port p).bounded) ∧
    s.admission.internal.Pairwise fun a b => a.sameSubject b = false

/-- Every page total of the three views is within the payload area (R28). -/
def State.pagesWithin (s : State) : Prop :=
  ∀ k, pageTotal s.stagedView k ≤ 224 ∧ pageTotal s.outgoingView k ≤ 224 ∧
    pageTotal s.inForceView k ≤ 224

/-- A sample in a post buffer has the payload size of its stream in force (R145, R147). -/
def State.postsFit (s : State) : Prop :=
  ∀ id d x, (s.entry id).inForce = some d →
    (s.mover.posts.get id = .fresh x ∨ s.mover.posts.get id = .held x) → x.length = d.payload

/-- The plans are the ones derived from their views: the in-force plan from the in-force view, labelled
with the in-force epoch; an outgoing plan exactly while a turnover is in flight, from the outgoing view,
labelled with the next epoch (R24, R66). -/
def State.plansMatch (s : State) : Prop :=
  s.plans.inForce = compile s.inForceView s.turnover.epoch ∧
    if s.turnover.inFlight then
      s.turnover.target = some (s.turnover.epoch + 1) ∧
        s.plans.outgoing = some (compile s.outgoingView (s.turnover.epoch + 1))
    else
      s.turnover.target = none ∧ s.plans.outgoing = none ∧ ∀ id, (s.entry id).outgoing = none

/-- A message is NUMBER. -/
def Message.isNumber : Message → Bool
  | .number _ => true
  | .identify _ | .tapload _ _ _ _ _ | .keep _ _ => false

/-- Each block works in the states that its rules give it: a turnover is in flight only while the ring is
RUNNING (R83), numbering is under way only in NUMBERING, and verification, of distinct positions, only in
RUNNING (R131, R141), a NUMBER is outstanding only while numbering is under way (R118), and a lapse is due
only while an item of its port is in processing (R43, R172), and a completed transaction waits only for a lapse
that is due (R171). -/
def State.coherent (s : State) : Prop :=
  (s.turnover.inFlight = true → s.ring.state = .running) ∧
  (∀ k, s.nodes.procedure = .numbering k → s.ring.state = .numbering) ∧
  (∀ l, s.nodes.procedure = .verifying l → s.ring.state = .running ∧ l.Nodup) ∧
  (∀ x, s.control.exchange = some x → x.message.isNumber = true →
    ∃ k, s.nodes.procedure = .numbering k) ∧
  (∀ x, s.control.exchange = some x → x.user = .verification → s.ring.state = .running) ∧
  (∀ p, (s.port p).lapseDue = true → s.processingOf p = true) ∧
  (∀ p, (s.port p).ended ≠ [] → (s.port p).lapseDue = true)

/-- The Ring Engine's counters and parameters are in their ranges (R98, R99, R100). -/
def Ring.inRange (r : Ring) : Prop :=
  r.quietLeft ≤ 4 ∧ r.misses ≤ 8 ∧ (r.state = .running → r.misses ≤ 7 ∧ r.shape ≤ 1) ∧
    r.heal ≤ 16 ∧ (r.state = .broken → r.heal ≤ 15) ∧ r.shape ≤ 2 ∧
    (1 ≤ r.missLimit ∧ r.missLimit ≤ 8) ∧ (1 ≤ r.healCount ∧ r.healCount ≤ 16) ∧
    r.retryLimit ≤ 7 ∧ r.gatherWindow ≤ 255

/-- Counters, thresholds, tickets, quotas and ring parameters are in their ranges (R15, R18, R65, R100,
R155, R177), and one port holds ring authority (R174). -/
def State.inRange (s : State) : Prop :=
  s.ring.inRange ∧ s.turnover.gather ≤ 255 ∧ s.admission.ticket ≠ 0 ∧
    (∀ p, s.admission.quotas.get p ≤ 224) ∧
    (∀ p, 1 ≤ (s.port p).events.threshold ∧ (s.port p).events.threshold ≤ 4096) ∧
    (∀ p id, (s.port p).gaps.get id ≤ 255) ∧
    ∃ p, ∀ q, (s.port q).authority = true ↔ q = p

/-! ## Commands by what they are -/

/-- The command by which the Admission Unit takes a request of a kind. -/
def requestCommand (straps : BitVec 2) : RequestKind → Instr
  | .openStream => .openStream | .alter => .alter | .close => .close | .subscribe => .subscribe
  | .unsubscribe => .unsubscribe | .handover => .handover | .streamQuery => .streamQuery
  | .occupancyQuery => .occupancyQuery | .nodeQuery => .nodeQuery | .flush => .flush
  | .attach => .attach | .detach => .detach | .setQuota => .setQuota | .ringStart => .ringStart
  | .ringStop => .ringStop | .ringRestart => .ringRestart | .setRingParameters => .setRingParameters
  | .deviceReset => .deviceReset straps

/-- The commands that may write a quota: Set Quota and the three resets (R15, R176). -/
def writesQuotas : Instr → Bool
  | .setQuota | .deviceReset _ | .powerOnReset _ _ | .pinReset _ => true
  | .request _ _ _ | .fetch _ _ _ | .drain _ _ _ | .post _ _ _ | .status _ _ _ | .take _ _ _
  | .serviceDone _ _ _ | .eventset _ _ _ | .unknownTransaction _ _ _ _ | .openStream | .alter | .close
  | .subscribe | .unsubscribe | .handover | .streamQuery | .occupancyQuery | .nodeQuery | .flush
  | .attach | .detach | .ringStart | .ringStop | .ringRestart | .setRingParameters | .portEntry
  | .nodeEntryLost | .nodeEntryNodeChanged | .gatherCounterExpiry | .freeze | .reconciliation
  | .hubCycle | .quietCyclesEnd | .returnEvaluation _ _ | .returnWindowExpiry | .beaconReceived _
  | .leaseExpiry _ | .lapse _ | .nresetRelease => false

/-- The commands that may change the placements in force: a hub cycle, which may be the switch cycle, the
end of the quiet cycles, which may be the entry into OFF, and the resets (R66). -/
def mayMovePlacements : Instr → Bool
  | .hubCycle | .quietCyclesEnd | .deviceReset _ | .powerOnReset _ _ | .pinReset _ => true
  | .request _ _ _ | .fetch _ _ _ | .drain _ _ _ | .post _ _ _ | .status _ _ _ | .take _ _ _
  | .serviceDone _ _ _ | .eventset _ _ _ | .unknownTransaction _ _ _ _ | .openStream | .alter | .close
  | .subscribe | .unsubscribe | .handover | .streamQuery | .occupancyQuery | .nodeQuery | .flush
  | .attach | .detach | .setQuota | .ringStart | .ringStop | .ringRestart | .setRingParameters
  | .portEntry | .nodeEntryLost | .nodeEntryNodeChanged | .gatherCounterExpiry | .freeze
  | .reconciliation | .returnEvaluation _ _ | .returnWindowExpiry | .beaconReceived _
  | .leaseExpiry _ | .lapse _ | .nresetRelease => false

/-! ## Transactions -/

/-- A port can begin a transaction: the part is not held in reset, no transaction is in progress, none is
held over from a reset, and no lapse is due. -/
def State.listens (s : State) (p : Port) : Prop :=
  s.nresetLow = false ∧ (s.port p).heldOver = false ∧ (s.port p).lapseDue = false ∧
    (s.port p).txn = none

/-- Octets as they go over an SPI line, each most significant bit first (R186). -/
def spiBits (octets : List Byte) : List Bool := octets.flatMap octetBits

/-- What a host clocks in for a whole transaction: a header with a kind code in its high four bits and any low
four bits, and the octets after it (R162, R191). -/
def txnBits (code low : BitVec 4) (octets : List Byte) : List Bool := spiBits ((code ++ low : Byte) :: octets)

/-- Bits clocked from the assertion of select on are those of a transaction of a kind: their first eight, if
there are as many, are a header that names it (R162). -/
def bitsOf (k : TxnKind) (bits : List Bool) : Prop :=
  8 ≤ bits.length → headerKind (octetOf (bits.take 8)) = k

/-- The status octet and what follows it, as they went out on HDO in a transaction that is complete, and
the lease loaded again when the port is ATTACHED (R162, R163, R171). -/
def HostPort.served (h : HostPort) (status : Byte) (out : List Byte) : HostPort :=
  ({ h with hdo := spiBits (status :: out) } : HostPort).touchLease

/-- What goes out in `n` octets after the status octet: the result from its first octet on, and then octets
of 0 (R162). -/
def clockedOut (result : List Byte) (n : Nat) : List Byte := (result ++ zeros n).take n

/-! ## Request frames (R192) -/

/-- A frame: its length, its tag, its kind code, its parameters. -/
def frameOf (tag : Byte) (code : Nat) (parameters : List Byte) : List Byte :=
  octet (3 + parameters.length) :: tag :: octet code :: parameters

/-- The six fields that Open and Alter both carry, as octets: owner receives, payload size, divisor, phase,
absence policy, sink count, sinks. -/
def fieldOctets (receives : Bool) (payload divisor phase : Nat) (policy : Policy) (sinks : List Pos) :
    List Byte :=
  [flagOctet receives, octet payload, octet divisor, octet phase, octet policy.code,
    octet sinks.length] ++ sinks.map fun p => octet (posNum p)

/-- The six fields are in range: at most four distinct sinks, payload size 1 to 32, divisor 1, 2, 4 or 8,
phase below the divisor (R2). -/
def fieldsInRange (payload divisor phase : Nat) (sinks : List Pos) : Prop :=
  sinks.length ≤ 4 ∧ sinks.Nodup ∧ (1 ≤ payload ∧ payload ≤ 32) ∧
    (divisor = 1 ∨ divisor = 2 ∨ divisor = 4 ∨ divisor = 8) ∧ phase < divisor

/-- The six fields as octets, whatever these hold. -/
def rawFields (receives payload divisor phase policy : Byte) (sinks : List Byte) : List Byte :=
  [receives, payload, divisor, phase, policy, octet sinks.length] ++ sinks

/-- The six fields as octets have a range or duplicate fault (R49, R51). -/
def rawOutOfRange (receives payload divisor phase policy : Byte) (sinks : List Byte) : Prop :=
  1 < receives.toNat ∨ 1 < policy.toNat ∨ payload = 0 ∨ 32 < payload.toNat ∨
    (divisor ≠ 1 ∧ divisor ≠ 2 ∧ divisor ≠ 4 ∧ divisor ≠ 8) ∨ divisor.toNat ≤ phase.toNat ∨
    4 < sinks.length ∨ ¬ sinks.Nodup ∨ ∃ x ∈ sinks, x = 0 ∨ 15 < x.toNat

/-! ## The measures of an edit (steps 7 and 8) -/

/-- The lowest position a descriptor names that is not READY (R45, R48). -/
def State.unreadyAt (s : State) (d : Descriptor) (q : Pos) : Prop :=
  d.names q = true ∧ (s.node q).state ≠ .ready ∧
    ∀ j, j < q → d.names j = true → (s.node j).state = .ready

/-- A page is the lowest on which a port's usage of a view is above its quota (R16, R48). -/
def State.overQuotaAt (s : State) (v : ViewTable) (p : Port) (k : Page) : Prop :=
  s.admission.quotas.get p < usage v p k ∧ ∀ j, j < k → usage v p j ≤ s.admission.quotas.get p

/-- An edited staged view is refused, past the test for a FREE entry, with a reason and its detail: PAGE_FULL
with the lowest page above 224 octets, else OVER_QUOTA with the lowest page on which the port is above its
quota, else TAPS_EXHAUSTED with the lowest named position with more taps than its capacity (R36, R45, R48). -/
def State.exceeds (s : State) (v : ViewTable) (p : Port) (d : Descriptor) (reason : Reason)
    (detail : Nat) : Prop :=
  (reason = .pageFull ∧ ∃ k : Page, detail = k.val ∧ 224 < pageTotal v k ∧
    ∀ j, j < k → pageTotal v j ≤ 224) ∨
  ((∀ k, pageTotal v k ≤ 224) ∧ reason = .overQuota ∧ ∃ k : Page, detail = k.val ∧ s.overQuotaAt v p k) ∨
  ((∀ k, pageTotal v k ≤ 224 ∧ usage v p k ≤ s.admission.quotas.get p) ∧ reason = .tapsExhausted ∧
    ∃ q : Pos, detail = posNum q ∧ d.names q = true ∧ (s.node q).capacity < tapCount v q ∧
      ∀ j, j < q → d.names j = true → tapCount v j ≤ (s.node j).capacity)

/-- An edited staged view is within every measure of step 8 past the FREE entry (R36, R45). -/
def State.fits (s : State) (v : ViewTable) (p : Port) (d : Descriptor) : Prop :=
  (∀ k, pageTotal v k ≤ 224 ∧ usage v p k ≤ s.admission.quotas.get p) ∧
    ∀ q, d.names q = true → tapCount v q ≤ (s.node q).capacity

/-! ## What a taken request leaves -/

/-- The answer placed for a request taken from port `p`, and nothing else: the frame has left its queue,
the arbiter position is the port, the answer is the last entry of the response queue, RESPONSE is raised,
and no reservation is held (R39, R40, R41, R48). -/
def State.afterAnswer (s : State) (p : Port) (f : List Byte) (r : Reply) : State :=
  { s with
    ports := s.ports.modify p fun h =>
      ({ h with
        requests := h.requests.tail, reserved := false
        responses := h.responses ++ [.answer (frameTag f) (frameKindOctet f) r] } : HostPort).raise .response
    admission := { s.admission with lastServed := p } }

/-- The Turnover Controller after an edit: one that makes the batch non-empty starts the gathering of an IDLE
controller, with the gather window, or has it WAITING at once when the ring is not RUNNING and the window is 0; it
changes nothing else (R67). -/
def State.gathered (s : State) : Turnover :=
  if s.admission.batchEmpty = true ∧ s.turnover.state = .idle then
    if s.ring.state ≠ .running ∧ s.ring.gatherWindow = 0 then
      { s.turnover with state := .waiting, gather := 0 }
    else { s.turnover with state := .gathering, gather := s.ring.gatherWindow }
  else s.turnover

/-- The Stream Table, the batch and the ticket counter after an accepted edit of entry `id` by port `p`, which
writes `d` into its staged view, and the Turnover Controller's gathering (R5, R18, R19, R67). -/
def State.afterEdit (s : State) (p : Port) (id : StreamId) (d : Option Descriptor) : State :=
  { s with
    streams := s.streams.modify id fun e => { e with staged := d, member := true }
    admission :=
      { s.admission with
        lastServed := p, ticket := if s.admission.ticket = 65535 then 1 else s.admission.ticket + 1
        batchEmpty := false, batchTickets := s.admission.batchTickets.set p s.admission.ticket }
    turnover := s.gathered }

/-- Nothing of a port but its responses and its events differs. -/
def HostPort.sameButNotices (h h' : HostPort) : Prop :=
  h' = { h with responses := h'.responses, events := h'.events }

/-- The sender of a request whose effect posts it a notice: its frame taken, the notice while the entry for
the answer is reserved, and then the answer, which raises RESPONSE (R39, R41, R48; log 20). -/
def HostPort.toldAndAnswered (h : HostPort) (n : Notice) (tag kind : Byte) : HostPort :=
  let h := ({ h with requests := h.requests.tail, reserved := true } : HostPort).post n
  ({ h with
    reserved := false, responses := h.responses ++ [.answer tag kind (.done [])] } : HostPort).raise .response

/-- Notices posted to a port one after another (R62). -/
def HostPort.postEach (h : HostPort) (l : List Notice) : HostPort := l.foldl HostPort.post h

/-- One notice for each place of a list of ports that is the port. -/
def noticesFor (q : Port) (l : List Port) (n : Notice) : List Notice := (l.filter (· == q)).map fun _ => n

/-- A turnover in flight has been abandoned (R83): the controller is WAITING with no target, no work and no
outgoing plan or view, every entry whose staged view is not its in-force view is a member of the batch, and
the outgoing tickets stand in the batch for the ports that have none in it (R19). -/
def State.abandonedTo (s t : State) : Prop :=
  t.turnover =
    { s.turnover with
      state := .waiting, target := none, work := [], flush := false, claim := false
      outTickets := Table.fill 0 } ∧
  t.plans.outgoing = none ∧ t.admission.batchEmpty = false ∧
  (∀ id, t.entry id =
    { s.entry id with
      outgoing := none
      member := (s.entry id).member || decide ((s.entry id).staged ≠ (s.entry id).inForce) }) ∧
  ∀ q, t.admission.batchTickets.get q =
    if s.admission.batchTickets.get q = 0 then s.turnover.outTickets.get q
    else s.admission.batchTickets.get q

/-- The controller, its views and its tickets as a Ring Stop or a Ring Restart leaves them: abandoned when a
turnover is in flight while the ring is RUNNING (R83), and as they were otherwise. -/
def State.abandonedOrSame (s t : State) (p : Port) : Prop :=
  t.plans.inForce = s.plans.inForce ∧ t.plans.retired = s.plans.retired ∧
  (s.ring.state = .running ∧ s.turnover.inFlight = true → s.abandonedTo t) ∧
  (s.ring.state ≠ .running ∨ s.turnover.inFlight = false →
    t.streams = s.streams ∧ t.plans = s.plans ∧ t.turnover = s.turnover ∧
    t.admission = { s.admission with lastServed := p })

/-! ## Returns -/

/-- The octets are a good return of a cycle (R97). -/
def goodReturnOf (r : CycleRecord) (octets : List Byte) : Prop :=
  headerGood octets = true ∧ payloadGood octets = true ∧ isBeacon octets = false ∧
    countOf octets = r.count

/-- What arrives is a damaged return of a cycle: not good, no beacon with a good header check, and not the late
mark of a cycle that a beacon concluded (R96, R97; log 32). -/
def Ring.damages (g : Ring) (r : CycleRecord) (octets : List Byte) : Prop :=
  ¬ goodReturnOf r octets ∧
    (headerGood octets = true →
      isBeacon octets = false ∧ (countOf octets ≠ r.count → countOf octets ∉ g.beaconed))

/-- A mark at a bit cell lies in the window of a cycle (R96). -/
def Ring.hears (g : Ring) (r : CycleRecord) (cell : Nat) : Prop :=
  r.start ≤ cell ∧
    (g.latency = none ∧ cell - r.start ≤ 4096 ∨
      ∃ l, g.latency = some l ∧ l ≤ cell - r.start + 64 ∧ cell - r.start ≤ l + 64)

/-- A mark at a bit cell comes L after the mark of a cycle (R96). -/
def Ring.hearsAtLatency (g : Ring) (r : CycleRecord) (cell : Nat) : Prop :=
  r.start ≤ cell ∧ g.latency = some (cell - r.start)

/-- A command concludes the oldest awaited cycle as a miss, and which origin a beacon gave: its window ends, or a
beacon with a good header check comes, at whatever cell (R96). -/
def missedBy (c : Instr) (origin : Option (Fin 17)) : Prop :=
  c = .returnWindowExpiry ∧ origin = none ∨
    ∃ (beacon : List Byte) (p : Pos) (o : Fin 17), headerGood beacon = true ∧ isBeacon beacon = true ∧
      numAt beacon 6 = posNum p ∧ o.val = posNum p ∧ origin = some o ∧
      (c = .beaconReceived beacon ∨ ∃ cell, c = .returnEvaluation cell ⟨beacon, []⟩)

/-- The Ring Engine after a miss that leaves the ring in its state: in RUNNING it is counted, in BROKEN it ends
the heal run, and in both it sets the break position (R98, R104); a beacon's cycle is kept (R96; log 32). -/
def Ring.afterMiss (g : Ring) (r : CycleRecord) (rest : List CycleRecord) (origin : Option (Fin 17)) : Ring :=
  let brk : Fin 17 := origin.getD (if g.breakPos = 0 then 16 else g.breakPos)
  let beaconed := if origin = none then g.beaconed else r.count :: g.beaconed
  match g.state with
  | .running => { g with sent := rest, beaconed := beaconed, misses := g.misses + 1, breakPos := brk }
  | .broken =>
    { g with sent := rest, beaconed := beaconed, heal := 0, healOdd := false, breakPos := brk }
  | .off | .quieting | .numbering | .identifying | .halted =>
    { g with sent := rest, beaconed := beaconed }

/-- The shape-mismatch count after a good or damaged return; `odd` is none for one with a bad header check or
another cycle count, and tells otherwise whether the hop count differs from the node count (R99). -/
def Ring.shapeAfter (g : Ring) (odd : Option Bool) : Nat :=
  match odd with
  | none => g.shape
  | some odd => if odd then g.shape + 1 else 0

/-- The Ring Engine after a damaged return that leaves the ring in its state; `odd` as in `Ring.shapeAfter` (R98,
R99, R104). -/
def Ring.afterDamaged (g : Ring) (rest : List CycleRecord) (odd : Option Bool) : Ring :=
  match g.state with
  | .running => { g with sent := rest, misses := 0, breakPos := 0, shape := g.shapeAfter odd }
  | .broken => { g with sent := rest, heal := 0, healOdd := false }
  | .off | .quieting | .numbering | .identifying | .halted => { g with sent := rest }

/-- The Ring Engine after a good return that leaves the ring in its state; `odd` tells a hop count other than the
node count (R98, R99, R104). -/
def Ring.afterGood (g : Ring) (rest : List CycleRecord) (odd : Bool) : Ring :=
  match g.state with
  | .running => { g with sent := rest, misses := 0, breakPos := 0, shape := g.shapeAfter (some odd) }
  | .broken => { g with sent := rest, heal := g.heal + 1, healOdd := g.healOdd || odd }
  | .off | .quieting | .numbering | .identifying | .halted => { g with sent := rest }

/-- A command has the oldest awaited cycle missed, which leaves the ring in its state; `g` is the Ring Engine
after it. -/
def State.returnsMissed (s : State) (r : CycleRecord) (rest : List CycleRecord) (c : Instr) (g : Ring) : Prop :=
  (s.ring.state = .running → s.ring.misses + 1 < s.ring.missLimit) ∧
    ∃ origin, missedBy c origin ∧ g = s.ring.afterMiss r rest origin

/-- A command brings a damaged return of the oldest awaited cycle, its mark at a cell of which `heard` holds,
which leaves the ring in its state, as it does unless it is the second shape mismatch in a row; `g` is the Ring
Engine after it. -/
def State.returnsDamaged (s : State) (r : CycleRecord) (rest : List CycleRecord) (heard : Nat → Prop)
    (octets : List Byte) (c : Instr) (g : Ring) : Prop :=
  (∃ cell, heard cell ∧ c = .returnEvaluation cell ⟨octets, []⟩) ∧ s.ring.damages r octets ∧
    (s.ring.state = .running → headerGood octets = true → countOf octets = r.count →
      numAt octets 5 = s.nodes.count.val ∨ s.ring.shape = 0) ∧
    g = s.ring.afterDamaged rest
      (if headerGood octets = true ∧ countOf octets = r.count then
        some (decide (numAt octets 5 ≠ s.nodes.count.val))
      else none)

/-- A command brings a good return of the oldest awaited cycle, its mark at a cell of which `heard` holds, which
leaves the ring in its state, as it does unless it is the second shape mismatch in a row or ends the heal run;
`g` is the Ring Engine after it. -/
def State.returnsGood (s : State) (r : CycleRecord) (rest : List CycleRecord) (heard : Nat → Prop)
    (octets : List Byte) (c : Instr) (g : Ring) : Prop :=
  (∃ cell, heard cell ∧ c = .returnEvaluation cell ⟨octets, []⟩) ∧ goodReturnOf r octets ∧
    (s.ring.state = .running → numAt octets 5 = s.nodes.count.val ∨ s.ring.shape = 0) ∧
    (s.ring.state = .broken → s.ring.heal + 1 < s.ring.healCount) ∧
    g = s.ring.afterGood rest (decide (numAt octets 5 ≠ s.nodes.count.val))

/-- No port is listed for a stream of a cycle's page, so that its return makes no record and no gap (R152). -/
def State.nothingListed (s : State) (r : CycleRecord) : Prop :=
  ∀ plan lines, s.planFor r.epoch = some (plan, lines) →
    ∀ pl ∈ plan.layouts.get (pageOf r.count), listedPorts lines pl.stream = []

/-- The gap counters after a miss of a cycle: one higher, stopping at 255, for each stream of the cycle's page and
each ATTACHED port its plan's delivery table lists for it, and as they were otherwise (R152, R155). -/
def State.leavesGaps (s t : State) (r : CycleRecord) : Prop :=
  (s.planFor r.epoch = none → ∀ q, (t.port q).gaps = (s.port q).gaps) ∧
  ∀ (plan : Plan) (lines : DeliveryTable), s.planFor r.epoch = some (plan, lines) →
    ((plan.layouts.get (pageOf r.count)).map (·.stream)).Nodup → (∀ id, (listedPorts lines id).Nodup) →
    ∀ q id, (t.port q).gaps.get id =
      if (s.port q).attached = true ∧ q ∈ listedPorts lines id ∧
          id ∈ (plan.layouts.get (pageOf r.count)).map (·.stream) then
        min 255 ((s.port q).gaps.get id + 1)
      else (s.port q).gaps.get id

/-- The retired plan and its delivery table after a return, when the records of `rest` are still awaited: both
kept while some record of `rest` carries the plan's epoch, and both discarded otherwise (R34, R151; the model
goes by the epoch a record carries, log 25). -/
def State.retiresAfter (s t : State) (rest : List CycleRecord) : Prop :=
  (∀ plan, s.plans.retired = some plan → (∃ r ∈ rest, r.epoch = plan.epoch) →
    t.plans.retired = some plan ∧ t.mover.retiredDelivery = s.mover.retiredDelivery) ∧
  ((∀ plan, s.plans.retired = some plan → ∀ r ∈ rest, r.epoch ≠ plan.epoch) →
    t.plans.retired = none ∧ t.mover.retiredDelivery = none)

/-! ## The work list -/

/-- A work list once distribution has gone on to its next item: the OPEN items ahead of the first OPEN one whose node
is READY, or all of them when there is none, are SKIPPED, and every other item is as it was (R78). -/
def skipsTo (ready : Pos → Prop) (work work' : List WorkItem) : Prop :=
  ∃ passed left, work = passed ++ left ∧
    work' = passed.map (fun w => if w.outcome = .opened then { w with outcome := .skipped } else w) ++ left ∧
    (∀ w ∈ passed, w.outcome = .opened → ¬ ready w.position) ∧
    ∀ w, left.head? = some w → w.outcome = .opened ∧ ready w.position

/-- The Turnover Controller after a return, from the work list `work`: in DISTRIBUTING it goes on to its next item by
the Node Table then, and to SWITCHING when none is OPEN (R78, R79; log 11); otherwise only a freeze claim, if `claim`
holds, is made (R71). -/
def State.goesOn (s t : State) (work : List WorkItem) (claim : Bool) : Prop :=
  (s.turnover.state = .distributing → ∃ work', skipsTo (fun p => (t.node p).state = .ready) work work' ∧
    t.turnover =
      { s.turnover with
        work := work'
        state := if ∃ w ∈ work', w.outcome = .opened then .distributing else .switching }) ∧
  (s.turnover.state ≠ .distributing →
    t.turnover = { s.turnover with claim := s.turnover.claim || claim })

/-! ## Exchanges -/

/-- The oldest awaited cycle carries the outstanding attempt of an exchange (R111, R115). -/
def State.attempts (s : State) (r : CycleRecord) (rest : List CycleRecord) (x : Exchange) (a : Attempt) :
    Prop :=
  s.ring.sent = r :: rest ∧ r.awaits = true ∧ s.control.exchange = some x ∧
    s.control.attempt = some a ∧ a.count = r.count

/-- A cycle's return decides no attempt: no exchange is outstanding, or its attempt is in another cycle, or in none
(R111, R115). -/
def State.decidesNothing (s : State) (r : CycleRecord) : Prop :=
  s.control.exchange = none ∨ r.awaits = false ∨ s.control.attempt.map (·.count) ≠ some r.count

/-- Awaited cycles once the outstanding exchange has been dropped: the record of the cycle that carries its
attempt no longer awaits a reply, and the records are otherwise as they were (R117). -/
def State.sentWithoutAttempt (s : State) (l : List CycleRecord) : List CycleRecord :=
  l.map fun r =>
    if s.control.exchange ≠ none ∧ s.control.attempt.map (·.count) = some r.count then
      { r with awaits := false }
    else r

/-- A return takes the ring out of RUNNING, with `ring` the Ring Engine after it, while a verification round has
`left` to conclude: the round, every exchange and the refresh end; the READY nodes of `left` become STALE; a turnover
in flight is abandoned; each port is posted NODE_STATE for these nodes, and then the RING_STATE notice, and RING_DOWN
is raised (R83, R102, R105, R117, R125, R142). Ports' gap counters are left open. -/
def State.leavesRunning (s t : State) (rest : List CycleRecord) (left : List Pos) (ring : Ring)
    (notice : Notice) : Prop :=
  let failing := left.filter fun p => (s.node p).state == .ready
  t = { s with
        ports := t.ports, streams := t.streams, turnover := t.turnover, ring := ring
        nodes := { s.nodes with entries := t.nodes.entries, procedure := .idle }
        plans := { s.plans with outgoing := t.plans.outgoing, retired := t.plans.retired }
        mover := { s.mover with retiredDelivery := t.mover.retiredDelivery }
        admission :=
          { s.admission with
            batchEmpty := t.admission.batchEmpty, batchTickets := t.admission.batchTickets }
        control :=
          { s.control with
            exchange := none, refresh := none
            attempt := if s.control.exchange = none then s.control.attempt else none } } ∧
  (s.turnover.inFlight = true → s.abandonedTo t) ∧
  (s.turnover.inFlight = false →
    t.streams = s.streams ∧ t.turnover = s.turnover ∧ t.admission = s.admission ∧
    t.plans.outgoing = s.plans.outgoing) ∧
  s.retiresAfter t rest ∧
  (∀ p, t.node p = if p ∈ failing then { s.node p with state := .stale } else s.node p) ∧
  ∀ q,
    let told := failing.foldl (fun h p =>
      (h.post (.nodeState p .stale (s.node p).held (s.node p).failures .verification)).raise
        .ringChange) (s.port q)
    t.port q = { (told.post notice).raise .ringDown with gaps := (t.port q).gaps }

/-- A return's control field is an IDENTITY from a position in answer to an attempt: an identity with a tap
capacity of 8 to 64, and a held epoch (R115, R120, R190). -/
def saysIdentity (octets : List Byte) (a : Attempt) (p : Pos) (i : Identity) (held : Option Epoch) : Prop :=
  octetAt octets 7 = 0x20 ∧ numAt octets 8 = posNum p ∧ octetAt octets 9 = a.sequence ∧
    i.cls = octetAt octets 10 ∧ i.revision = octetAt octets 11 ∧
    i.serial = octetAt octets 12 ++ octetAt octets 13 ++ octetAt octets 14 ++ octetAt octets 15 ∧
    i.capacity = numAt octets 16 ∧ 8 ≤ i.capacity ∧ i.capacity ≤ 64 ∧
    octetAt octets 17 = heldOctet held

/-- A return's control field is a reply of a kind from a position to an attempt, with a target epoch (R115,
R190). -/
def saysReply (octets : List Byte) (a : Attempt) (kind : Byte) (p : Pos) (e : Epoch) : Prop :=
  octetAt octets 7 = kind ∧ numAt octets 8 = posNum p ∧ octetAt octets 9 = a.sequence ∧
    octetAt octets 10 = epochOctet e

/-- A good return's control field answers a message: the message it is, from its target, to the attempt, with a
body that matches. A NUMBER is answered by itself with a counter, which 0 is not (R115, R118; log 9). -/
def Message.answered (m : Message) (a : Attempt) (octets : List Byte) : Prop :=
  match m with
  | .number _ => octetAt octets 7 = 0x01 ∧ octetAt octets 9 = a.sequence ∧ octetAt octets 10 ≠ 0
  | .identify p => ∃ i held, saysIdentity octets a p i held
  | .tapload p e part _ _ =>
    (saysReply octets a 0x21 p e ∨ saysReply octets a 0x23 p e) ∧ numAt octets 11 = part
  | .keep p e => saysReply octets a 0x22 p e

/-- A command brings the return of the cycle that carries an attempt, the attempt fails, and the ring stays in its
state: a miss, a damaged return, or a good return whose field does not answer the message, be it the message
itself, another kind, or a reply with another sequence number, responder or body (R115). -/
def State.failsAttempt (s : State) (r : CycleRecord) (rest : List CycleRecord) (x : Exchange) (a : Attempt)
    (heard : Nat → Prop) (c : Instr) (g : Ring) : Prop :=
  s.returnsMissed r rest c g ∨ (∃ octets, s.returnsDamaged r rest heard octets c g) ∨
    ∃ octets, s.returnsGood r rest heard octets c g ∧ ¬ x.message.answered a octets

/-! ## What a cycle carries -/

/-- The control field of a hub cycle composed in a state, with whether it awaits a reply and the Control Channel
after it: QUIET in QUIETING, NONE while an attempt is outstanding, the message of an exchange that has no attempt,
or else the first message of a new exchange: of the Node Table procedure, then of distribution, then of a refresh,
in progress or begun at a tick for the lowest STALE node whose list fits its capacity; or else NONE (R112, R122,
R123). -/
def State.composes (s : State) (octets : List Byte) (awaits : Bool) (control : Control) : Prop :=
  let silent (field : List Byte) : Prop :=
    awaits = false ∧ controlOf octets = field ∧ control = s.control
  let sends (x : Exchange) (refresh : Option Refresh) : Prop :=
    awaits = true ∧ controlOf octets = x.message.octets s.control.sequence ∧
      control =
        { exchange := some x
          attempt := some { sequence := s.control.sequence, count := s.ring.nextCount }
          sequence := s.control.sequence + 1, refresh := refresh }
  let begins (user : User) (message : Message) (refresh : Option Refresh) : Prop :=
    sends { user := user, message := message, failed := 0, limit := s.ring.retryLimit } refresh
  let part (p : Pos) (plan : Plan) (next parts : Nat) : Message :=
    .tapload p plan.epoch next parts (((plan.taps.get p).drop (3 * (next - 1))).take 3)
  let fits (p : Pos) : Prop := (s.node p).state = .stale ∧ ∃ i, (s.node p).identity = some i ∧
    (s.plans.inForce.taps.get p).length ≤ i.capacity
  let distributes (w : WorkItem) (plan : Plan) : Prop :=
    s.turnover.state = .distributing ∧ s.plans.outgoing = some plan ∧
      ∃ l l', s.turnover.work = l ++ w :: l' ∧ w.outcome = .opened ∧ ∀ v ∈ l, v.outcome ≠ .opened
  (s.ring.state = .quieting → silent fieldQuiet) ∧
  (s.ring.state ≠ .quieting →
    (s.control.attempt ≠ none → silent fieldNone) ∧
    (s.control.attempt = none →
      (∀ x, s.control.exchange = some x → sends x s.control.refresh) ∧
      (s.control.exchange = none →
        (∀ k, s.nodes.procedure = .numbering k →
          begins .numbering (.number s.turnover.epoch) s.control.refresh) ∧
        (∀ p, s.nodes.procedure = .identifying p →
          begins .identification (.identify p) s.control.refresh) ∧
        (∀ p l, s.nodes.procedure = .verifying (p :: l) →
          begins .verification (.identify p) s.control.refresh) ∧
        (s.nodes.procedure = .idle ∨ s.nodes.procedure = .reconciling ∨ s.nodes.procedure = .verifying [] →
          (∀ w plan, distributes w plan →
            (w.mark = .load → begins .distribution (part w.position plan w.next w.parts)
              s.control.refresh) ∧
            (w.mark = .keep → begins .distribution (.keep w.position plan.epoch) s.control.refresh)) ∧
          ((∀ w plan, ¬ distributes w plan) →
            (∀ f, s.control.refresh = some f → f.ended = false →
              begins .refresh (part f.position s.plans.inForce f.next f.parts) (some f)) ∧
            (∀ f, s.control.refresh = some f → f.ended = true → silent fieldNone) ∧
            (∀ p n, s.control.refresh = none → s.ring.nextCount.toNat % 64 = 0 →
              s.ring.state = .running → s.turnover.inFlight = false → fits p → (∀ q, q < p → ¬ fits q) →
              1 ≤ n → (s.plans.inForce.taps.get p).length ≤ 3 * n →
              (n = 1 ∨ 3 * n < (s.plans.inForce.taps.get p).length + 3) →
              begins .refresh (part p s.plans.inForce 1 n)
                (some { position := p, parts := n, next := 1, ended := false })) ∧
            (s.control.refresh = none → (s.ring.nextCount.toNat % 64 ≠ 0 ∨ s.ring.state ≠ .running ∨
              s.turnover.inFlight = true ∨ ∀ p, ¬ fits p) → silent fieldNone))))))

/-- The Ring Engine after a hub cycle: its record is kept, with the epoch it carries, and the cycle count and the
line go on; in QUIETING one quiet cycle fewer is left (R89, R106; log 32 for `beaconed`). -/
def Ring.afterCycle (g : Ring) (epoch : Epoch) (awaits : Bool) (octets : List Byte) : Ring :=
  { g with
    sent := g.sent ++ [{ count := g.nextCount, epoch := epoch, awaits := awaits, start := g.nextCell }]
    nextCount := g.nextCount + 1, nextCell := g.nextCell + 2048
    quietLeft := if g.state = .quieting then g.quietLeft - 1 else g.quietLeft
    rgo := octets, beaconed := g.beaconed.filter (· != g.nextCount) }

/-! ## Reconciliation (R138) -/

/-- An entry takes part in reconciliation with a serial: it is READY or STALE and holds an identity. -/
def NodeEntry.partakes (e : NodeEntry) (x : BitVec 32) : Prop :=
  (e.state = .ready ∨ e.state = .stale) ∧ ∃ i, e.identity = some i ∧ i.serial = x

/-- An old position maps to a new one: the serial of the old entry is held by that one old entry and that
one new entry among those that take part (R138). -/
def mapsTo (old new : Table NodeEntry 15) (p q : Pos) : Prop :=
  ∃ x, (old.get p).partakes x ∧ (new.get q).partakes x ∧
    (∀ p', (old.get p').partakes x → p' = p) ∧ ∀ q', (new.get q').partakes x → q' = q

end Sys2Proof.Machine
end

