-- ==== Sys2Proof/Certificates/Slice0/Obligations.lean ====
section
/-! DEFINITION. The statements about the model, for the provers. -/

open Sys2Proof Sys2Proof.Machine

/-! ## The step and the sound states -/

/-- A step carries out the command at the front of the queue on the state with the queue's rest (log 17). -/
def Obligations.StepRunsFrontCommand : Prop :=
  ∀ (c : Instr) (rest : List Instr) (s : State),
    step { s with pending := c :: rest } = exec c { s with pending := rest }

/-- With no command waiting the part idles, unless the frame the arbiter would take is of unknown kind: that
frame is taken and refused, by NOT_ATTACHED or MALFORMED. The choice to take it in this step is the
model's (logs 2 and 3). -/
def Obligations.StepWithNoCommand : Prop :=
  ∀ s : State, s.pending = [] →
    ((s.pick = none ∨ ∃ p f k, s.pick = some (p, f) ∧ frameKind f = some k) → step s = .next s) ∧
    ∀ p f, s.pick = some (p, f) → frameKind f = none →
      step s = .next (s.afterAnswer p f
        (.refused (if (s.port p).attached then .malformed else .notAttached) 0))

/-- The state after reset is sound in every sense used here. -/
def Obligations.ResetStateIsSound : Prop :=
  State.reset.bounded ∧ State.reset.pagesWithin ∧ State.reset.plansMatch ∧ State.reset.coherent ∧
    State.reset.inRange ∧ State.reset.postsFit

/-- No queue of a port ever holds more than its size, and no two entries of the internal edit list are for
one port or one position, so that the list has at most 19: a step keeps it so. -/
def Obligations.QueuesStayBounded : Prop :=
  ∀ s : State, s.bounded →
    s.admission.internal.length ≤ 19 ∧ ∀ t, step s = .next t → t.bounded

/-- Every step keeps every page total of the three views within 224 octets. -/
def Obligations.PageTotalsStayWithin : Prop :=
  ∀ s t : State, s.pagesWithin → step s = .next t → t.pagesWithin

/-- Every step keeps each plan the one derived from its view, and keeps an outgoing plan exactly while a
turnover is in flight. Every step keeps the samples in the post buffers at the payload size in force. -/
def Obligations.PlansStayDerived : Prop :=
  ∀ s t : State, step s = .next t →
    (s.plansMatch → t.plansMatch) ∧ (s.postsFit → t.postsFit)

/-- Every step keeps each block in the states its rules give it; above all, no turnover is in flight outside
RUNNING, and no lapse stays due unless an item of its port is in processing, so that its claim is granted at
once. -/
def Obligations.TurnoverOnlyWhileRunning : Prop :=
  ∀ s t : State, s.coherent → step s = .next t → t.coherent

/-- Every step keeps counters, thresholds, tickets, quotas and ring parameters in their ranges, and keeps
ring authority with one port. -/
def Obligations.RangesAreKept : Prop :=
  ∀ s t : State, s.inRange → step s = .next t → t.inRange

/-- No command but Set Quota and the resets changes a quota. The placements in force change only at a hub
cycle, at the end of the quiet cycles and at a reset; at a hub cycle that is not the switch cycle they do
not. -/
def Obligations.QuotasAndPlacementsAreKept : Prop :=
  (∀ (c : Instr) (s t : State), writesQuotas c = false → exec c s = .next t →
    t.admission.quotas = s.admission.quotas) ∧
  ∀ (c : Instr) (s t : State), s.plansMatch → exec c s = .next t →
    (mayMovePlacements c = false ∨ (c = .hubCycle ∧ s.switchDue s.ring.nextCount = false)) →
    t.plans.inForce.layouts = s.plans.inForce.layouts

/-- The layout of a page is packed: the first placement lies at 0, each later one where the one before it
ends, in ascending stream id, and the last one ends at the page total. A tap list is ordered by
page and then by offset, and holds one tap for each placement of a stream that names its position: WRITE
for the source and READ otherwise. -/
def Obligations.PlansArePackedAndTapped : Prop :=
  ∀ (v : ViewTable) (e : Epoch) (k : Page),
    (∀ a l, layoutOf v k = a :: l → a.offset = 0) ∧
    (∀ l a b r, layoutOf v k = l ++ a :: b :: r →
      b.offset = a.offset + a.length ∧ a.stream < b.stream) ∧
    (∀ l a, layoutOf v k = l ++ [a] → a.offset + a.length = pageTotal v k) ∧
    (compile v e).layouts.get k = layoutOf v k ∧
    (∀ pl, pl ∈ layoutOf v k →
      ∃ d, v.get pl.stream = some d ∧ d.present k = true ∧ pl.length = d.payload + 1) ∧
    (∀ id d, v.get id = some d → d.present k = true → ∃ pl ∈ layoutOf v k, pl.stream = id) ∧
    (∀ p, ((compile v e).taps.get p).Pairwise fun a b =>
      a.page < b.page ∨ a.page = b.page ∧ a.offset < b.offset) ∧
    ∀ (p : Pos) (t : Tap),
      t ∈ (compile v e).taps.get p ∧ t.page = k ↔
        ∃ pl d, pl ∈ layoutOf v k ∧ v.get pl.stream = some d ∧ d.names p = true ∧
          t = { page := k, role := if d.source = .node p then .write else .read,
                offset := pl.offset, length := pl.length, stream := pl.stream }

/-! ## Transactions -/

/-- A whole REQUEST: a frame whose length octet names 3 to 32 octets and as many as came joins a queue with
room; any other is discarded with PROTOCOL. Here and below a whole transaction is clocked bit by bit, a header
with its kind code and any low four bits first, and its octets go in and out most significant bit first. -/
def Obligations.RequestQueuesFrame : Prop :=
  ∀ (p : Port) (low : BitVec 4) (f : List Byte) (s : State), s.listens p →
    exec (.request p (txnBits 1 low f) true) s = .next (s.modPort p fun h =>
      (if (3 ≤ f.length ∧ f.length ≤ 32 ∧ f.head? = some (octet f.length)) ∧ h.requests.length < 4 then
        { h with requests := h.requests ++ [f] }
      else h.raise .protocol).served (h.statusOctet s.running) (zeros f.length))

/-- A whole FETCH: the head entry goes out and is removed once its last octet has gone out; cut short, it
stays; an empty queue sends the empty marker. -/
def Obligations.FetchSendsHeadEntry : Prop :=
  ∀ (p : Port) (low : BitVec 4) (octets : List Byte) (s : State), s.listens p →
    exec (.fetch p (txnBits 2 low octets) true) s = .next (s.modPort p fun h =>
      match h.responses with
      | [] => h.served (h.statusOctet s.running) (zeros octets.length)
      | e :: rest =>
        if e.octets.length ≤ octets.length then
          ({ h with responses := rest } : HostPort).served (h.statusOctet s.running)
            (e.octets ++ zeros (octets.length - e.octets.length))
        else h.served (h.statusOctet s.running) (e.octets.take octets.length))

/-- A whole DRAIN, however many octets the host clocks: the records at the head go out one after another and
each is removed once its last octet has gone out; one cut short stays at the head, whole; past the last
record empty-record markers of six octets go out and remove nothing. A DRAIN that goes on after a whole
record or marker looks at the queue again and sends the record it then finds (when it looks is the model's,
log 15). -/
def Obligations.DrainSendsRecord : Prop :=
  (∀ (p : Port) (low : BitVec 4) (octets : List Byte) (s : State), s.listens p →
    (∀ l r rest, (s.port p).delivery = l ++ r :: rest → occupancy l ≤ octets.length →
      octets.length < occupancy l + r.size →
      exec (.drain p (txnBits 3 low octets) true) s = .next (s.modPort p fun h =>
        ({ h with delivery := r :: rest } : HostPort).served (h.statusOctet s.running)
          (l.flatMap Record.octets ++ r.octets.take (octets.length - occupancy l)))) ∧
    (occupancy (s.port p).delivery ≤ octets.length →
      exec (.drain p (txnBits 3 low octets) true) s = .next (s.modPort p fun h =>
        ({ h with delivery := [] } : HostPort).served (h.statusOctet s.running)
          (h.delivery.flatMap Record.octets ++
            ((List.replicate octets.length [0xFF, 0, 0, 0, 0, 0]).flatten).take
              (octets.length - occupancy h.delivery))))) ∧
  ∀ (p : Port) (octets : List Byte) (s : State) (x : Txn) (r : Record) (rest : List Record),
    s.nresetLow = false → (s.port p).heldOver = false → (s.port p).lapseDue = false →
    (s.port p).txn = some x → x.kind = some .drain → x.bits = [] → x.sending = [] →
    (s.port p).delivery = r :: rest → octets.length = r.size →
    exec (.drain p (spiBits octets) true) s = .next (s.modPort p fun h =>
      ({ h with delivery := rest, txn := none, hdo := h.hdo ++ spiBits r.octets } : HostPort).touchLease)

/-- A whole POST of an ATTACHED port: a sample of the in-force payload size for a HOST-sourced stream that
the port owns in force makes the post buffer NEW; any other post raises PROTOCOL. A post of a port that is
not ATTACHED is dropped without an event. -/
def Obligations.PostFillsBuffer : Prop :=
  ∀ (p : Port) (low : BitVec 4) (octets : List Byte) (s : State), s.listens p →
    let posts (t : State) : Prop := exec (.post p (txnBits 4 low octets) true) s = .next t
    ((s.port p).attached = false →
      posts (s.modPort p fun h => h.served (h.statusOctet s.running) (zeros octets.length))) ∧
    (∀ (id : StreamId) (d : Descriptor) (sample : List Byte), (s.port p).attached = true →
      octets = octet id.val :: sample → (s.entry id).inForce = some d → d.source = .host →
      d.owner = p → sample.length = d.payload →
      posts
        { s.modPort p (fun h => h.served (h.statusOctet s.running) (zeros octets.length)) with
          mover := { s.mover with posts := s.mover.posts.set id (.fresh sample) } }) ∧
    ((s.port p).attached = true →
      (∀ (id : StreamId) (d : Descriptor) (sample : List Byte),
        octets = octet id.val :: sample → (s.entry id).inForce = some d →
        d.source = .host → d.owner = p → sample.length ≠ d.payload) →
      posts (s.modPort p fun h =>
        (h.raise .protocol).served (h.statusOctet s.running) (zeros octets.length)))

/-- The first eight bits clocked name the transaction by their first four, and the last four are not read: codes
1 to 8 name the eight kinds, and the others are of unknown kind. A select period of fewer than eight clocks is
an empty transaction: whatever command it is taken for (the model's, log 15), as many bits of the status octet
go out, the most significant first, and nothing else changes. The status octet is the one taken at the assertion
of select, whatever happens before the header's last clock. A whole STATUS sends the status block, taken at the
end of the header, and then octets of 0; the lease time left in the block is a free value (log 4). A whole
transaction of unknown kind sends octets of 0 and raises PROTOCOL. -/
def Obligations.StatusAndUnknownKind : Prop :=
  (∀ (low : BitVec 4) (p : Port) (octets : List Byte) (release : Bool),
    let names (code : BitVec 4) (c : Port → List Bool → Bool → Instr) : Prop :=
      selectPeriod p (txnBits code low octets) release = some (c p (txnBits code low octets) release)
    names 1 .request ∧ names 2 .fetch ∧ names 3 .drain ∧ names 4 .post ∧ names 5 .status ∧
    names 6 .take ∧ names 7 .serviceDone ∧ names 8 .eventset ∧
    ∀ code : BitVec 4, code = 0 ∨ 9 ≤ code.toNat → names code (.unknownTransaction code)) ∧
  (∀ (k : TxnKind) (code : BitVec 4) (p : Port) (bits : List Bool) (s : State), s.listens p → bits.length < 8 →
    selectPeriod p bits true = none ∧
    exec (k.command code p bits true) s = .next (s.modPort p fun h =>
      { h with hdo := (octetBits (h.statusOctet s.running)).take bits.length })) ∧
  (∀ (k : TxnKind) (code : BitVec 4) (p : Port) (a b : List Bool) (s t u v : State), s.listens p →
    a.length + b.length = 8 → bitsOf k (a ++ b) → exec (k.command code p a false) s = .next t →
    u.nresetLow = false → (u.port p).heldOver = false → (u.port p).lapseDue = false →
    (u.port p).txn = (t.port p).txn → (u.port p).hdo = (t.port p).hdo →
    exec (k.command code p b false) u = .next v →
    (v.port p).hdo = octetBits ((s.port p).statusOctet s.running) ∧ (v.port p).kind = some k) ∧
  ∀ (p : Port) (low : BitVec 4) (octets : List Byte) (s : State), s.listens p →
    (21 ≤ octets.length → exec (.status p (txnBits 5 low octets) true) s = .next
      { s.modPort p (fun h => h.served (h.statusOctet s.running)
          (statusBlock p h (Config.leaseElapsed s.freeCount) s.ring.state s.ring.breakPos
              s.turnover.epoch ++ zeros (octets.length - 21))) with
        freeCount := s.freeCount + 1 }) ∧
    ∀ code : BitVec 4, code = 0 ∨ 9 ≤ code.toNat →
      exec (.unknownTransaction code p (txnBits code low octets) true) s = .next (s.modPort p fun h =>
        (h.raise .protocol).served (h.statusOctet s.running) (zeros octets.length))

/-- A whole TAKE, however many octets the host clocks. With no kind pending and enabled it reports NONE.
Otherwise it chooses the pending enabled kind of the highest level and, of those, of the lowest rank: with
fewer than two levels on the stack it clears that kind and pushes its level; with two it reports
SERVICE_FULL and changes nothing. -/
def Obligations.TakeHandsOutEvent : Prop :=
  ∀ (p : Port) (low : BitVec 4) (octets : List Byte) (s : State), s.listens p →
    let takes (t : State) : Prop := exec (.take p (txnBits 6 low octets) true) s = .next t
    ((∀ k, (s.port p).events.counts k = false) →
      takes (s.modPort p fun h =>
        h.served (h.statusOctet s.running) (clockedOut [1, 0xFF, 0, 0] octets.length))) ∧
    ∀ k : Fin 7, (s.port p).events.counts k = true →
      (∀ j, (s.port p).events.counts j = true →
        ((s.port p).events.kinds.get j).level = .urgent →
          ((s.port p).events.kinds.get k).level = .urgent ∧ k ≤ j) →
      (∀ j, (s.port p).events.counts j = true →
        ((s.port p).events.kinds.get k).level = .routine → k ≤ j) →
      takes (s.modPort p fun h =>
        let n := ((List.finRange 7).filter h.events.counts).length
        let again := flagOctet (h.events.kinds.get k).repeated
        if h.events.stack.length < 2 then
          ({ h with
            events :=
              { h.events with
                kinds := h.events.kinds.modify k fun f => { f with pending := false, repeated := false }
                stack := (h.events.kinds.get k).level :: h.events.stack } } : HostPort).served
            (h.statusOctet s.running)
            (clockedOut [0, octet k.val, again, octet (n - 1)] octets.length)
        else
          h.served (h.statusOctet s.running)
            (clockedOut [2, octet k.val, again, octet n] octets.length))

/-- A whole DONE, however many octets the host clocks, removes the level on top of the stack and reports it
with the depth left, or reports NOT_IN_SERVICE; it changes nothing else of the port's events. The two
octets after NOT_IN_SERVICE are left open here (log 12). -/
def Obligations.DoneEndsService : Prop :=
  ∀ (p : Port) (low : BitVec 4) (octets : List Byte) (s : State), s.listens p →
    let ends (t : State) : Prop := exec (.serviceDone p (txnBits 7 low octets) true) s = .next t
    ((s.port p).events.stack = [] →
      ∃ a b, ends (s.modPort p fun h =>
        h.served (h.statusOctet s.running) (clockedOut [1, a, b] octets.length))) ∧
    ∀ l rest, (s.port p).events.stack = l :: rest →
      ends (s.modPort p fun h =>
        ({ h with events := { h.events with stack := rest } } : HostPort).served
          (h.statusOctet s.running) (clockedOut [0, octet l.code, octet rest.length] octets.length))

/-- A whole EVENTSET of an ATTACHED port: four octets, no bit 7 in either set and a threshold of 1 to 4096
set every enable, every level and the threshold at once; any other raises PROTOCOL. One of a port that is
not ATTACHED is discarded without an event. -/
def Obligations.EventsetWritesSettings : Prop :=
  ∀ (p : Port) (low : BitVec 4) (octets : List Byte) (s : State), s.listens p →
    let sets (t : State) : Prop := exec (.eventset p (txnBits 8 low octets) true) s = .next t
    ((s.port p).attached = false →
      sets (s.modPort p fun h => h.served (h.statusOctet s.running) (zeros octets.length))) ∧
    (∀ (enables levels : Byte) (threshold : Nat), (s.port p).attached = true →
      enables.getLsbD 7 = false → levels.getLsbD 7 = false →
      1 ≤ threshold → threshold ≤ 4096 → octets = enables :: levels :: octetsNat threshold →
      sets (s.modPort p fun h =>
        ({ h with
          events :=
            { h.events with
              kinds := Table.tabulate fun k =>
                { h.events.kinds.get k with
                  enabled := enables.getLsbD k.val
                  level := if levels.getLsbD k.val then .urgent else .routine }
              threshold := threshold } } : HostPort).served
          (h.statusOctet s.running) (zeros 4))) ∧
    ((s.port p).attached = true →
      (octets.length ≠ 4 ∨ (octetAt octets 0).getLsbD 7 = true ∨ (octetAt octets 1).getLsbD 7 = true ∨
        256 * numAt octets 2 + numAt octets 3 = 0 ∨ 4096 < 256 * numAt octets 2 + numAt octets 3) →
      sets (s.modPort p fun h =>
        (h.raise .protocol).served (h.statusOctet s.running) (zeros octets.length)))

/-- A transaction sent in two commands is the transaction sent in one: it may be cut at any bit. The cutting is
the model's (log 15). The bits of an octet that the release cuts off are not part of the transaction: only as
many more bits have gone out. HDO is driven exactly while select is asserted. It changes on the falling edge of
HCLK: while the clock is low it carries the bit of the next clock, in mode 0 from the assertion of select on,
when that is the first bit of the status octet, and while the clock is high still the bit of the last one. From
which item a DRAIN takes that next bit is decided by its clock, and the commands give whole clocks: both are the
model's (log 15). So is that HDO is at a free level at high clock before any bit, as mode 3 begins (log 38), of
which nothing is said here. A transaction of one port changes no other port, and no stream, plan, node, ring
state or exchange. -/
def Obligations.TransactionsMayBeCut : Prop :=
  (∀ (k : TxnKind) (code : BitVec 4) (p : Port) (a b : List Bool) (release : Bool) (s t : State),
    s.listens p → bitsOf k (a ++ b) → exec (k.command code p a false) s = .next t →
    exec (k.command code p b release) t = exec (k.command code p (a ++ b) release) s) ∧
  (∀ (k : TxnKind) (code : BitVec 4) (p : Port) (header : Byte) (octets : List Byte) (cut : List Bool) (s t : State),
    s.listens p → headerKind header = k → cut.length < 8 →
    exec (k.command code p (spiBits (header :: octets)) true) s = .next t →
    ∃ out, out.length = cut.length ∧
      exec (k.command code p (spiBits (header :: octets) ++ cut) true) s =
        .next (t.modPort p fun h => { h with hdo := h.hdo ++ out })) ∧
  (∀ (k : TxnKind) (code : BitVec 4) (p : Port) (bits : List Bool) (b : Bool) (s t u : State),
    s.listens p → bitsOf k (bits ++ [b]) →
    exec (k.command code p bits false) s = .next t → exec (k.command code p [b] false) t = .next u →
    (s.port p).selected = false ∧ (∀ clock, s.hdoPin p clock = none) ∧ (t.port p).selected = true ∧
    (∃ x, t.hdoPin p false = some x ∧ (u.port p).hdo = (t.port p).hdo ++ [x] ∧
      u.hdoPin p true = some x ∧
      (bits = [] → x = ((s.port p).statusOctet s.running).getLsbD 7 ∧
        t.hdoPin p SpiMode.mode0.idle = some x)) ∧
    ∃ v, exec (k.command code p bits true) s = .next v ∧ (v.port p).selected = false ∧
      ∀ clock, v.hdoPin p clock = none) ∧
  ∀ (k : TxnKind) (code : BitVec 4) (p q : Port) (bits : List Bool) (release : Bool) (s t : State),
    exec (k.command code p bits release) s = .next t → q ≠ p →
    t.port q = s.port q ∧ t.streams = s.streams ∧ t.plans = s.plans ∧ t.ring = s.ring ∧
      t.control = s.control ∧ t.nodes = s.nodes

/-- What is left of a transaction that any reset has cut off has no effect: bits of 0 go out until its
release, which is not taken as a completion. So does every further command of it, and every transaction
while NRESET is held low. That a select asserted while NRESET is low is held over beyond NRESET's release is the
model's choice (log 41). -/
def Obligations.ResetVoidsTransaction : Prop :=
  ∀ (k : TxnKind) (code : BitVec 4) (p : Port) (bits : List Bool) (release : Bool),
    let out : List Bool := List.replicate bits.length false
    (∀ (c : Instr) (straps : BitVec 2) (s t : State),
      ((∃ low, c = .powerOnReset straps low) ∨ c = .pinReset straps ∨
        c = .deviceReset straps ∧ ∃ q tag, s.pick = some (q, frameOf tag 0x35 []) ∧
          (s.port q).attached = true ∧ (s.port q).authority = true) →
      (s.port p).txn ≠ none → exec c s = .next t →
      exec (k.command code p bits release) t = .next (t.modPort p fun h =>
        { h with hdo := out, heldOver := !release })) ∧
    (∀ s : State, (s.port p).heldOver = true →
      exec (k.command code p bits release) s = .next (s.modPort p fun h =>
        { h with hdo := h.hdo ++ out, heldOver := !release })) ∧
    ∀ s : State, s.nresetLow = true → (s.port p).heldOver = false →
      exec (k.command code p bits release) s = .next (s.modPort p fun h =>
        { h with hdo := out, heldOver := !release })

/-! ## Items -/

/-- The arbiter takes the oldest frame of the first eligible port after the one last served, in round-robin
order, when no item is in processing, no internal entry waits and no lapse is due. A port is eligible when
a frame waits and its entries and its reservation number fewer than 8. -/
def Obligations.ArbiterIsRoundRobin : Prop :=
  ∀ (s : State) (p : Port) (f : List Byte),
    s.pick = some (p, f) ↔
      s.admission.processing = none ∧ s.admission.internal = [] ∧
      (∀ q, (s.port q).lapseDue = false) ∧ (∃ rest, (s.port p).requests = f :: rest) ∧
      (s.port p).responses.length + (if (s.port p).reserved then 1 else 0) < 8 ∧
      ∀ q : Port, q - s.admission.lastServed - 1 < p - s.admission.lastServed - 1 →
        (s.port q).requests = [] ∨
          8 ≤ (s.port q).responses.length + (if (s.port q).reserved then 1 else 0)

/-- The check order, for the requests that are no edits and for what all share. Step 1: any request but
Attach of a port that is not ATTACHED is refused with NOT_ATTACHED. Step 2: one whose length is not the one
its kind calls for is refused with MALFORMED. Step 3: one that is no edit and has a parameter out of range is
refused with BAD_ARGUMENT, whether or not the port holds ring authority. Step 4: a ring-level request in range
without ring authority is refused with NOT_AUTHORITY in every ring state. Step 5: a Ring Start, Ring Stop or
Ring Restart of the authority port in a ring state that does not allow it is refused with RING_STATE. Nothing
else changes. -/
def Obligations.ChecksRefuseInOrder : Prop :=
  ∀ (straps : BitVec 2) (k : RequestKind) (s : State) (p : Port) (f : List Byte) (tag : Byte),
    s.pick = some (p, f) →
    let refused (r : Reason) : Prop :=
      exec (requestCommand straps k) s = .next (s.afterAnswer p f (.refused r 0))
    (frameKind f = some k → k ≠ .attach → (s.port p).attached = false → refused .notAttached) ∧
    (frameKind f = some k → k = .attach ∨ (s.port p).attached = true → f.length ≠ frameLength k f →
      refused .malformed) ∧
    (k = .attach ∨ (s.port p).attached = true →
      ((∃ id : Byte, k = .streamQuery ∧ 47 < id.toNat ∧ f = frameOf tag 0x10 [id]) ∨
        (∃ q : Byte, k = .nodeQuery ∧ (q = 0 ∨ 15 < q.toNat) ∧ f = frameOf tag 0x12 [q]) ∨
        (∃ lease enables : Byte, k = .attach ∧ enables.getLsbD 7 = true ∧
          f = frameOf tag 0x20 [lease, enables]) ∨
        (∃ q quota : Byte, k = .setQuota ∧ (3 < q.toNat ∨ 224 < quota.toNat) ∧
          f = frameOf tag 0x30 [q, quota]) ∨
        ∃ rate m h r w : Byte, k = .setRingParameters ∧
          (2 < rate.toNat ∨ m = 0 ∨ 8 < m.toNat ∨ h = 0 ∨ 16 < h.toNat ∨ 7 < r.toNat) ∧
          f = frameOf tag 0x34 [rate, m, h, r, w]) →
      refused .badArgument) ∧
    ((s.port p).attached = true → (s.port p).authority = false →
      (k = .ringStart ∧ f = frameOf tag 0x31 [] ∨ k = .ringStop ∧ f = frameOf tag 0x32 [] ∨
        k = .ringRestart ∧ f = frameOf tag 0x33 [] ∨ k = .deviceReset ∧ f = frameOf tag 0x35 [] ∨
        (∃ (q : Port) (quota : Nat), k = .setQuota ∧ quota ≤ 224 ∧
          f = frameOf tag 0x30 [octet q.val, octet quota]) ∨
        (∃ (rate : CycleRate) (m h r w : Nat), k = .setRingParameters ∧ (1 ≤ m ∧ m ≤ 8) ∧
          (1 ≤ h ∧ h ≤ 16) ∧ r ≤ 7 ∧ w ≤ 255 ∧
          f = frameOf tag 0x34 [octet rate.code, octet m, octet h, octet r, octet w])) →
      refused .notAuthority) ∧
    ((s.port p).attached = true → (s.port p).authority = true →
      (k = .ringStart ∧ f = frameOf tag 0x31 [] ∧ s.ring.state ≠ .off ∨
        k = .ringStop ∧ f = frameOf tag 0x32 [] ∧ s.ring.state = .off ∨
        k = .ringRestart ∧ f = frameOf tag 0x33 [] ∧
          (s.ring.state = .off ∨ s.ring.state = .quieting ∨ s.ring.state = .numbering ∨
            s.ring.state = .identifying)) →
      refused .ringState)

/-! ## Edits -/

/-- How an Open is judged, by the checks in their order. With a parameter out of range, or parameters that do
not agree, it is refused with BAD_ARGUMENT; outside RUNNING and BROKEN with RING_STATE; with a named position
that is not READY with NODE_UNAVAILABLE and the lowest such; with no FREE entry with NO_FREE_ENTRY; and with a
page total, the port's usage or a node's taps above their limits with PAGE_FULL, OVER_QUOTA or
TAPS_EXHAUSTED, in that order, and the lowest page or position at fault. A refusal changes nothing else. One
that passes writes its descriptor, with sorted sinks and the policy VOID for a NODE source, into the staged
view of the lowest FREE entry, and is answered ACCEPTED with that entry and the ticket. -/
def Obligations.OpenIsJudged : Prop :=
  (∀ (s : State) (p : Port) (tag src receives payload divisor phase policy : Byte) (sinks f : List Byte),
    f = frameOf tag 0x01 (src :: rawFields receives payload divisor phase policy sinks) →
    s.pick = some (p, f) → (s.port p).attached = true → sinks.length ≤ 22 →
    (15 < src.toNat ∨ rawOutOfRange receives payload divisor phase policy sinks ∨
      (src ≠ 0 ∧ src ∈ sinks) ∨ (src = 0 ∧ (sinks = [] ∨ receives = 1)) ∨
      (src ≠ 0 ∧ sinks = [] ∧ receives = 0)) →
    exec .openStream s = .next (s.afterAnswer p f (.refused .badArgument 0))) ∧
  ∀ (s : State) (p : Port) (tag : Byte) (src : Source) (receives : Bool)
    (payload divisor phase : Nat) (policy : Policy) (sinks : List Pos) (f : List Byte) (d : Descriptor),
    f = frameOf tag 0x01 (octet src.code :: fieldOctets receives payload divisor phase policy sinks) →
    d = { owner := p, source := src, sinks := sortPositions sinks, ownerReceives := receives,
          subscribers := [], payload := payload, divisor := divisor, phase := phase,
          policy := match src with
            | .host => policy
            | .node _ => .void } →
    s.pick = some (p, f) → (s.port p).attached = true →
    fieldsInRange payload divisor phase sinks →
    (src = .host → sinks ≠ [] ∧ receives = false) →
    (∀ q, src = .node q → q ∉ sinks ∧ (sinks ≠ [] ∨ receives = true)) →
    let refused (r : Reason) (detail : Nat) : Prop :=
      exec .openStream s = .next (s.afterAnswer p f (.refused r detail))
    (s.ring.state ≠ .running ∧ s.ring.state ≠ .broken → refused .ringState 0) ∧
    (s.ring.state = .running ∨ s.ring.state = .broken →
      (∀ q, s.unreadyAt d q → refused .nodeUnavailable (posNum q)) ∧
      ((∀ q, d.names q = true → (s.node q).state = .ready) →
        ((∀ j, (s.entry j).isFree = false) → refused .noFreeEntry 0) ∧
        ∀ id, (s.entry id).isFree = true → (∀ j, j < id → (s.entry j).isFree = false) →
          (∀ r detail, s.exceeds (s.stagedView.set id (some d)) p d r detail → refused r detail) ∧
          (s.fits (s.stagedView.set id (some d)) p d →
            exec .openStream s = .next
              ((s.afterEdit p id (some d)).afterAnswer p f (.accepted id s.admission.ticket)))))

/-- How an Alter is judged, by the checks in their order: BAD_ARGUMENT for a stream id or a field out of range;
RING_STATE outside RUNNING and BROKEN; NO_SUCH_STREAM for an absent staged view; NOT_OWNER for another port than
the staged owner; BAD_ARGUMENT where the altered descriptor does not agree with the stored source and
subscribers; NODE_UNAVAILABLE, PAGE_FULL, OVER_QUOTA and TAPS_EXHAUSTED as for an Open. A refusal changes
nothing else. One that passes replaces the six alterable fields of the staged descriptor, and keeps owner,
source and subscribers; it is answered ACCEPTED. -/
def Obligations.AlterIsJudged : Prop :=
  (∀ (s : State) (p : Port) (tag id receives payload divisor phase policy : Byte) (sinks f : List Byte),
    f = frameOf tag 0x02 (id :: rawFields receives payload divisor phase policy sinks) →
    s.pick = some (p, f) → (s.port p).attached = true → sinks.length ≤ 22 →
    (47 < id.toNat ∨ rawOutOfRange receives payload divisor phase policy sinks) →
    exec .alter s = .next (s.afterAnswer p f (.refused .badArgument 0))) ∧
  ∀ (s : State) (p : Port) (tag : Byte) (id : StreamId) (receives : Bool)
    (payload divisor phase : Nat) (policy : Policy) (sinks : List Pos) (f : List Byte),
    f = frameOf tag 0x02 (octet id.val :: fieldOctets receives payload divisor phase policy sinks) →
    s.pick = some (p, f) → (s.port p).attached = true →
    fieldsInRange payload divisor phase sinks →
    let refused (r : Reason) (detail : Nat) : Prop :=
      exec .alter s = .next (s.afterAnswer p f (.refused r detail))
    (s.ring.state ≠ .running ∧ s.ring.state ≠ .broken → refused .ringState 0) ∧
    (s.ring.state = .running ∨ s.ring.state = .broken →
      ((s.entry id).staged = none → refused .noSuchStream 0) ∧
      ∀ old, (s.entry id).staged = some old →
        let d : Descriptor :=
          { old with
            sinks := sortPositions sinks, ownerReceives := receives, payload := payload
            divisor := divisor, phase := phase
            policy := match old.source with
              | .host => policy
              | .node _ => .void }
        let agrees : Prop := match old.source with
          | .host => sinks ≠ [] ∧ receives = false
          | .node q => q ∉ sinks ∧ (sinks ≠ [] ∨ receives = true ∨ old.subscribers ≠ [])
        (old.owner ≠ p → refused .notOwner 0) ∧
        (old.owner = p → ¬ agrees → refused .badArgument 0) ∧
        (old.owner = p → agrees →
          (∀ q, s.unreadyAt d q → refused .nodeUnavailable (posNum q)) ∧
          ((∀ q, d.names q = true → (s.node q).state = .ready) →
            (∀ r detail, s.exceeds (s.stagedView.set id (some d)) p d r detail → refused r detail) ∧
            (s.fits (s.stagedView.set id (some d)) p d →
              exec .alter s = .next
                ((s.afterEdit p id (some d)).afterAnswer p f (.accepted id s.admission.ticket))))))

/-- How a Close is judged: BAD_ARGUMENT for a stream id above 47, RING_STATE in QUIETING and OFF,
NO_SUCH_STREAM for an absent staged view, NOT_OWNER for another port than the staged owner; a refusal changes
nothing else. By the owner it makes the staged view absent and is answered ACCEPTED; each subscriber is posted
STREAM_CLOSED with reason OWNER_CLOSED, and no other port changes. -/
def Obligations.CloseIsJudged : Prop :=
  ∀ (s : State) (p : Port) (tag a : Byte) (f : List Byte),
    f = frameOf tag 0x03 [a] → s.pick = some (p, f) → (s.port p).attached = true →
    let refused (r : Reason) : Prop := exec .close s = .next (s.afterAnswer p f (.refused r 0))
    (47 < a.toNat → refused .badArgument) ∧
    ∀ id : StreamId, a = octet id.val →
      (s.ring.state = .quieting ∨ s.ring.state = .off → refused .ringState) ∧
      (s.ring.state ≠ .quieting → s.ring.state ≠ .off →
        ((s.entry id).staged = none → refused .noSuchStream) ∧
        ∀ d, (s.entry id).staged = some d →
          (d.owner ≠ p → refused .notOwner) ∧
          (d.owner = p → d.subscribers.Nodup → p ∉ d.subscribers →
            ∃ t, exec .close s = .next t ∧
              t = { (s.afterEdit p id none).afterAnswer p f (.accepted id s.admission.ticket) with
                    ports := t.ports } ∧
              t.port p =
                ((s.afterEdit p id none).afterAnswer p f (.accepted id s.admission.ticket)).port p ∧
              (∀ q, q ∈ d.subscribers → t.port q = (s.port q).post (.streamClosed id .ownerClosed none)) ∧
              ∀ q, q ∉ d.subscribers → q ≠ p → t.port q = s.port q))

/-- How a Subscribe and an Unsubscribe are judged: BAD_ARGUMENT for a stream id above 47; RING_STATE, for a
Subscribe outside RUNNING and BROKEN and for an Unsubscribe in QUIETING and OFF; NO_SUCH_STREAM for an absent
staged view; for a Subscribe ALREADY by the owner or a subscriber, and then BAD_ARGUMENT for a HOST source or a
list of three; for an Unsubscribe NOT_SUBSCRIBER by a port that is not in the list. A refusal changes nothing
else. An accepted Subscribe appends the port; an accepted Unsubscribe removes it, and the others keep their
order. -/
def Obligations.SubscriptionsAreJudged : Prop :=
  ∀ (s : State) (p : Port) (tag a : Byte) (f : List Byte),
    s.pick = some (p, f) → (s.port p).attached = true →
    (f = frameOf tag 0x04 [a] →
      let refused (r : Reason) : Prop := exec .subscribe s = .next (s.afterAnswer p f (.refused r 0))
      (47 < a.toNat → refused .badArgument) ∧
      ∀ id : StreamId, a = octet id.val →
        (s.ring.state ≠ .running ∧ s.ring.state ≠ .broken → refused .ringState) ∧
        (s.ring.state = .running ∨ s.ring.state = .broken →
          ((s.entry id).staged = none → refused .noSuchStream) ∧
          ∀ d, (s.entry id).staged = some d →
            (d.owner = p ∨ p ∈ d.subscribers → refused .already) ∧
            (d.owner ≠ p → p ∉ d.subscribers → d.source = .host ∨ 3 ≤ d.subscribers.length →
              refused .badArgument) ∧
            (d.owner ≠ p → p ∉ d.subscribers → d.source ≠ .host → d.subscribers.length < 3 →
              exec .subscribe s = .next
                ((s.afterEdit p id (some { d with subscribers := d.subscribers ++ [p] })).afterAnswer p f
                  (.accepted id s.admission.ticket))))) ∧
    (f = frameOf tag 0x05 [a] →
      let refused (r : Reason) : Prop := exec .unsubscribe s = .next (s.afterAnswer p f (.refused r 0))
      (47 < a.toNat → refused .badArgument) ∧
      ∀ id : StreamId, a = octet id.val →
        (s.ring.state = .quieting ∨ s.ring.state = .off → refused .ringState) ∧
        (s.ring.state ≠ .quieting → s.ring.state ≠ .off →
          ((s.entry id).staged = none → refused .noSuchStream) ∧
          ∀ d, (s.entry id).staged = some d →
            (p ∉ d.subscribers → refused .notSubscriber) ∧
            ∀ before after', d.subscribers = before ++ p :: after' → p ∉ before →
              exec .unsubscribe s = .next
                ((s.afterEdit p id (some { d with subscribers := before ++ after' })).afterAnswer p f
                  (.accepted id s.admission.ticket))))

/-- How a Handover is judged: BAD_ARGUMENT for a stream id above 47 or a port above 3, RING_STATE outside
RUNNING and BROKEN, NO_SUCH_STREAM for an absent staged view, NOT_OWNER for another port than the staged owner,
NOT_SUBSCRIBER for a receiving port that is not in the list, OVER_QUOTA with the lowest page on which the
receiving port would be above its quota; a refusal changes nothing else. An accepted one makes the subscriber
the owner, receiving, and out of the list; the new owner is posted STREAM_GAINED. -/
def Obligations.HandoverIsJudged : Prop :=
  ∀ (s : State) (p : Port) (tag a b : Byte) (f : List Byte),
    f = frameOf tag 0x06 [a, b] → s.pick = some (p, f) → (s.port p).attached = true →
    let refused (r : Reason) (detail : Nat) : Prop :=
      exec .handover s = .next (s.afterAnswer p f (.refused r detail))
    (47 < a.toNat ∨ 3 < b.toNat → refused .badArgument 0) ∧
    ∀ (id : StreamId) (q : Port), a = octet id.val → b = octet q.val →
      (s.ring.state ≠ .running ∧ s.ring.state ≠ .broken → refused .ringState 0) ∧
      (s.ring.state = .running ∨ s.ring.state = .broken →
        ((s.entry id).staged = none → refused .noSuchStream 0) ∧
        ∀ d, (s.entry id).staged = some d →
          (d.owner ≠ p → refused .notOwner 0) ∧
          (d.owner = p → q ∉ d.subscribers → refused .notSubscriber 0) ∧
          ∀ before after' d', d.owner = p → d.subscribers = before ++ q :: after' → q ∉ before →
            d' = { d with owner := q, ownerReceives := true, subscribers := before ++ after' } →
            (∀ k, s.overQuotaAt (s.stagedView.set id (some d')) q k → refused .overQuota k.val) ∧
            ((∀ k, usage (s.stagedView.set id (some d')) q k ≤ s.admission.quotas.get q) → p ≠ q →
              ∃ t, exec .handover s = .next t ∧
                t = { (s.afterEdit p id (some d')).afterAnswer p f (.accepted id s.admission.ticket) with
                      ports := t.ports } ∧
                t.port p = ((s.afterEdit p id (some d')).afterAnswer p f
                  (.accepted id s.admission.ticket)).port p ∧
                t.port q = (s.port q).post (.streamGained id p) ∧
                ∀ r, r ≠ p → r ≠ q → t.port r = s.port r))

/-! ## Queries, sessions, quotas -/

/-- Stream Query and Node Query answer DONE with the entry of the stream table or of the node table as it
stands; where no identity is held its seven octets are free values (log 28). Occupancy Query answers DONE
with the port's quota and, for the staged and the in-force view and for each page, the page total, the
free octets and the port's own octets. None of them changes anything else. -/
def Obligations.QueriesAnswerTables : Prop :=
  ∀ (s : State) (p : Port) (tag : Byte) (f : List Byte), s.pick = some (p, f) →
    (s.port p).attached = true →
    (∀ id : StreamId, f = frameOf tag 0x10 [octet id.val] →
      exec .streamQuery s = .next (s.afterAnswer p f (.done
        ([octet id.val, octet (s.entry id).state.code, flagOctet (s.entry id).outgoing.isSome,
            flagOctet (s.entry id).member] ++ viewOctets (s.entry id).staged ++
          viewOctets (s.entry id).outgoing ++ viewOctets (s.entry id).inForce)))) ∧
    (∀ q : Pos, f = frameOf tag 0x12 [octet (posNum q)] →
      ∃ seven, seven.length = 7 ∧
      exec .nodeQuery s = .next (State.afterAnswer
        { s with
          freeCount := if (s.node q).identity = none then s.freeCount + 1 else s.freeCount }
        p f (.done
        ([octet (posNum q), octet (s.node q).state.code] ++
          (match (s.node q).identity with
          | some i => [1, i.cls, i.revision] ++ octets32 i.serial ++ [octet i.capacity]
          | none => 0 :: seven) ++
          [heldOctet (s.node q).held, octet (s.node q).failures] ++
          octetsNat (tapCount s.stagedView q) ++ octetsNat (s.plans.inForce.taps.get q).length ++
          [octet s.nodes.count.val, octet s.ring.breakPos.val])))) ∧
    (f = frameOf tag 0x11 [] →
      ∃ data, exec .occupancyQuery s = .next (s.afterAnswer p f (.done data)) ∧ data.length = 49 ∧
        data.head? = some (octet (s.admission.quotas.get p)) ∧
        ∀ k : Page,
          octetAt data (1 + 3 * k.val) = octet (pageTotal s.stagedView k) ∧
          octetAt data (2 + 3 * k.val) = octet (224 - pageTotal s.stagedView k) ∧
          octetAt data (3 + 3 * k.val) = octet (usage s.stagedView p k) ∧
          octetAt data (25 + 3 * k.val) = octet (pageTotal s.inForceView k) ∧
          octetAt data (26 + 3 * k.val) = octet (224 - pageTotal s.inForceView k) ∧
          octetAt data (27 + 3 * k.val) = octet (usage s.inForceView p k))

/-- An Attach makes the port ATTACHED with the lease and the enables it carries, loads the lease or stops it,
and keeps every other event setting; its answer is the port, the authority flag and the ring state. -/
def Obligations.AttachBeginsSession : Prop :=
  ∀ (s : State) (p : Port) (tag lease enables : Byte) (f : List Byte),
    f = frameOf tag 0x20 [lease, enables] → s.pick = some (p, f) → enables.getLsbD 7 = false →
    exec .attach s = .next (State.afterAnswer
      (s.modPort p fun h =>
        { h with
          state := .attached, leaseSetting := lease
          leaseTimer := if lease = 0 then none else some (lease.toNat * 327680)
          events :=
            { h.events with
              kinds := Table.tabulate fun k =>
                { h.events.kinds.get k with enabled := enables.getLsbD k.val } } })
      p f (.done [octet p.val, flagOctet (s.port p).authority, octet s.ring.state.code]))

/-- A Detach ends the session: the queues and the events are cleared, the port's tickets are 0, the post
buffers of the streams it owns in force are EMPTY, a port entry is queued, and the answer DONE is the
only entry of the response queue; the streams and the other ports are as before. -/
def Obligations.DetachEndsSession : Prop :=
  ∀ (s : State) (p : Port) (tag : Byte) (f : List Byte), f = frameOf tag 0x21 [] →
    s.pick = some (p, f) → (s.port p).attached = true →
    exec .detach s = .next
      { s with
        ports := s.ports.modify p fun h =>
          { h with
            state := .detached, leaseSetting := 0, leaseTimer := none, reserved := false
            requests := [], responses := [.answer tag 0x21 (.done [])]
            events := EventUnit.cleared, delivery := [], gaps := Table.fill 0
            txn := h.txn.map fun x => { x with removes := false } }
        admission :=
          { s.admission with
            lastServed := p, internal := [.port p]
            batchTickets := s.admission.batchTickets.set p 0 }
        turnover := { s.turnover with outTickets := s.turnover.outTickets.set p 0 }
        mover :=
          { s.mover with
            posts := Table.tabulate fun id =>
              if ∃ d, (s.entry id).inForce = some d ∧ d.owner = p then .empty
              else s.mover.posts.get id } }

/-- Set Quota by the authority port sets the named port's quota; Set Ring Parameters by the authority port
stores its five values, when the rate is the one held or the ring is OFF, and is refused with RING_STATE
otherwise. Nothing else changes but the answer. -/
def Obligations.QuotaAndParametersAreSet : Prop :=
  ∀ (s : State) (p : Port) (tag : Byte), (s.port p).attached = true → (s.port p).authority = true →
    (∀ (q : Port) (quota : Nat) (f : List Byte), quota ≤ 224 →
      f = frameOf tag 0x30 [octet q.val, octet quota] → s.pick = some (p, f) →
      exec .setQuota s = .next (State.afterAnswer
        { s with admission := { s.admission with quotas := s.admission.quotas.set q quota } }
        p f (.done [octet q.val, octet quota]))) ∧
    (∀ (rate : CycleRate) (m h r w : Nat) (f : List Byte), 1 ≤ m → m ≤ 8 → 1 ≤ h → h ≤ 16 → r ≤ 7 →
      w ≤ 255 → f = frameOf tag 0x34 [octet rate.code, octet m, octet h, octet r, octet w] →
      s.pick = some (p, f) →
      exec .setRingParameters s = .next
        (if rate = s.ring.rate ∨ s.ring.state = .off then
          State.afterAnswer
            { s with
              ring :=
                { s.ring with
                  rate := rate, missLimit := m, healCount := h, retryLimit := r, gatherWindow := w } }
            p f (.done [octet rate.code, octet m, octet h, octet r, octet w])
        else s.afterAnswer p f (.refused .ringState 0)))

/-! ## Ring requests and resets -/

/-- Ring Start by the authority port in OFF enters QUIETING with destination NUMBERING and four quiet cycles
left; every port is posted RING_STATE with reason START. The sender is posted it ahead of its answer: that
order is the model's (log 20). -/
def Obligations.RingStartQuietsRing : Prop :=
  ∀ (s : State) (p : Port) (tag : Byte) (f : List Byte), f = frameOf tag 0x31 [] →
    s.pick = some (p, f) → (s.port p).attached = true → (s.port p).authority = true →
    s.ring.state = .off →
    ∃ t, exec .ringStart s = .next t ∧
      t = { s with
            ports := t.ports
            admission := { s.admission with lastServed := p }
            ring :=
              { s.ring with state := .quieting, quietDest := some .numbering, quietLeft := 4 } } ∧
      (∀ q, q ≠ p → t.port q = (s.port q).post (.ringState .quieting s.ring.breakPos .start)) ∧
      t.port p =
        (s.port p).toldAndAnswered (.ringState .quieting s.ring.breakPos .start) tag 0x31

/-- Ring Stop by the authority port, in any state but OFF and QUIETING, enters QUIETING with destination OFF
and four quiet cycles left; every port is posted RING_STATE with reason STOP, the sender ahead of its
answer (that order is the model's, log 20). A turnover in flight while RUNNING is abandoned, the Node
Table procedure ends, and nothing is outstanding in the Control Channel: the cycle that carries a dropped attempt
no longer awaits its reply, and every other record of an awaited cycle stays. The staged and in-force views, the
Node Table's entries, the plan in force and the post buffers stay. In QUIETING only the destination changes. -/
def Obligations.RingStopEndsWork : Prop :=
  ∀ (s : State) (p : Port) (tag : Byte) (f : List Byte), f = frameOf tag 0x32 [] →
    s.pick = some (p, f) → (s.port p).attached = true → (s.port p).authority = true →
    (s.control.exchange = none → s.control.attempt = none) →
    (s.ring.state = .quieting →
      exec .ringStop s = .next (State.afterAnswer
        { s with ring := { s.ring with quietDest := some .off } } p f (.done []))) ∧
    (s.ring.state ≠ .quieting → s.ring.state ≠ .off →
      ∃ t, exec .ringStop s = .next t ∧
        t = { s with
              ports := t.ports, streams := t.streams, plans := t.plans, turnover := t.turnover
              admission :=
                { s.admission with
                  lastServed := p, batchEmpty := t.admission.batchEmpty
                  batchTickets := t.admission.batchTickets }
              ring :=
                { s.ring with
                  state := .quieting, quietDest := some .off, quietLeft := 4
                  sent := s.sentWithoutAttempt s.ring.sent }
              control := { s.control with exchange := none, attempt := none, refresh := none }
              nodes := { s.nodes with procedure := .idle } } ∧
        s.abandonedOrSame t p ∧
        (∀ q, q ≠ p → t.port q = (s.port q).post (.ringState .quieting s.ring.breakPos .stop)) ∧
        t.port p =
          (s.port p).toldAndAnswered (.ringState .quieting s.ring.breakPos .stop) tag 0x32)

/-- Ring Restart by the authority port in RUNNING, BROKEN or HALTED copies the Node Table into the retained
table and enters NUMBERING with a numbering under way; a turnover in flight while RUNNING is abandoned, and
nothing is outstanding in the Control Channel: the cycle that carries a dropped attempt no longer awaits its
reply, and every other record of an awaited cycle stays. The staged and in-force views, the plan in force, the
post buffers and the node entries stay. Every port is posted RING_STATE with reason RESTART, the sender ahead of
its answer (that order is the model's, log 20). -/
def Obligations.RingRestartNumbersAgain : Prop :=
  ∀ (s : State) (p : Port) (tag : Byte) (f : List Byte), f = frameOf tag 0x33 [] →
    s.pick = some (p, f) → (s.port p).attached = true → (s.port p).authority = true →
    (s.control.exchange = none → s.control.attempt = none) →
    (s.ring.state = .running ∨ s.ring.state = .broken ∨ s.ring.state = .halted) →
    ∃ t, exec .ringRestart s = .next t ∧
      t = { s with
            ports := t.ports, streams := t.streams, plans := t.plans, turnover := t.turnover
            admission :=
              { s.admission with
                lastServed := p, batchEmpty := t.admission.batchEmpty
                batchTickets := t.admission.batchTickets }
            ring :=
              { s.ring with
                state := .numbering, misses := 0, heal := 0, healOdd := false, shape := 0
                sent := s.sentWithoutAttempt s.ring.sent }
            control := { s.control with exchange := none, attempt := none, refresh := none }
            nodes :=
              { s.nodes with
                retained := some { entries := s.nodes.entries, count := s.nodes.count }
                procedure := .numbering 0 } } ∧
      s.abandonedOrSame t p ∧
      (∀ q, q ≠ p → t.port q = (s.port q).post (.ringState .numbering s.ring.breakPos .restart)) ∧
      t.port p =
        (s.port p).toldAndAnswered (.ringState .numbering s.ring.breakPos .restart) tag 0x33

/-- Every reset leaves the part as right after reset, with its own cause in every port, the authority flag
with the port that the straps name, and transactions in progress cut off. A Device Reset is carried out
when it is taken from the authority port, and has no answer. The release of NRESET changes nothing else. -/
def Obligations.ResetsClearThePart : Prop :=
  ∀ (s : State) (straps : BitVec 2),
    let after' (cause : ResetCause) (low : Bool) : State :=
      { State.reset with
        ports := Table.tabulate fun p =>
          { HostPort.reset cause (decide (straps.toNat = p.val)) with
            heldOver := (s.port p).heldOver || (s.port p).txn.isSome }
        nresetLow := low, freeCount := s.freeCount, pending := s.pending }
    (∀ low, exec (.powerOnReset straps low) s = .next (after' .power low)) ∧
    exec (.pinReset straps) s = .next (after' .pin true) ∧
    exec .nresetRelease s = .next { s with nresetLow := false } ∧
    ∀ p tag, s.pick = some (p, frameOf tag 0x35 []) → (s.port p).attached = true →
      (s.port p).authority = true →
      exec (.deviceReset straps) s = .next (after' .command false)

/-! ## Internal edits -/

/-- A port entry passes each node-sourced stream of the departed port to its first subscriber, closes its
other streams, takes it out of every subscriber list, and leaves the rest of the Stream Table; the batch
is not empty after it, which starts the gathering of an IDLE controller when it was empty before, and no ticket
is given. Each new owner is posted STREAM_GAINED with the departed
port, in ascending stream id, and no port changes otherwise. -/
def Obligations.PortEntryPassesStreams : Prop :=
  ∀ (s : State) (n : Port) (rest : List InternalEntry),
    s.admission.processing = none → s.admission.internal = .port n :: rest →
    ∃ t, exec .portEntry s = .next t ∧
      t = { s with
            ports := t.ports, streams := t.streams, turnover := s.gathered
            admission := { s.admission with internal := rest, batchEmpty := false } } ∧
      (∀ id, (t.entry id).outgoing = (s.entry id).outgoing ∧
        (t.entry id).inForce = (s.entry id).inForce) ∧
      (∀ id, (s.entry id).staged = none → t.entry id = s.entry id) ∧
      (∀ id d, (s.entry id).staged = some d →
        (∀ q x l, d.owner = n → d.source = .node q → d.subscribers = x :: l →
          (t.entry id).staged =
            some { d with owner := x, ownerReceives := true, subscribers := l } ∧
          (t.entry id).member = true) ∧
        (d.owner = n → (d.source = .host ∨ d.subscribers = []) →
          (t.entry id).staged = none ∧ (t.entry id).member = true) ∧
        (∀ before after', d.owner ≠ n → d.subscribers = before ++ n :: after' → n ∉ before →
          (t.entry id).staged = some { d with subscribers := before ++ after' } ∧
          (t.entry id).member = true) ∧
        (d.owner ≠ n → n ∉ d.subscribers → t.entry id = s.entry id)) ∧
      ∀ q, t.port q = (s.port q).postEach (allStreams.flatMap fun id =>
        match (s.entry id).staged with
        | some d =>
          if d.owner = n ∧ d.source ≠ .host ∧ d.subscribers.head? = some q then [.streamGained id n]
          else []
        | none => [])

/-- A node entry with reason LOST closes each stream whose source is the lost node, takes the node out of
every list of sinks, closes a stream that has no receiver left, and leaves the rest of the Stream Table;
the batch is not empty after it, which starts the gathering of an IDLE controller when it was empty before. In
ascending stream id, owner and subscribers of a closed stream are
posted STREAM_CLOSED, with SOURCE_LOST or SINKS_LOST, and the owner of a stream that lost a sink
SINK_REMOVED; no port changes otherwise. -/
def Obligations.LostEntryDropsNode : Prop :=
  ∀ (s : State) (p : Pos) (rest : List InternalEntry),
    s.admission.processing = none → s.admission.internal = .lost p :: rest →
    ∃ t, exec .nodeEntryLost s = .next t ∧
      t = { s with
            ports := t.ports, streams := t.streams, turnover := s.gathered
            admission := { s.admission with internal := rest, batchEmpty := false } } ∧
      (∀ id, (t.entry id).outgoing = (s.entry id).outgoing ∧
        (t.entry id).inForce = (s.entry id).inForce) ∧
      (∀ id, (s.entry id).staged = none → t.entry id = s.entry id) ∧
      (∀ id d, (s.entry id).staged = some d →
        (d.source = .node p → (t.entry id).staged = none ∧ (t.entry id).member = true) ∧
        (d.source ≠ .node p → p ∈ d.sinks →
          (t.entry id).member = true ∧
          (t.entry id).staged =
            if d.sinks.all (· == p) = true ∧ d.ownerReceives = false ∧ d.subscribers = [] then none
            else some { d with sinks := d.sinks.filter (· != p) }) ∧
        (d.source ≠ .node p → p ∉ d.sinks → t.entry id = s.entry id)) ∧
      ∀ q, t.port q = (s.port q).postEach (allStreams.flatMap fun id =>
        match (s.entry id).staged with
        | some d =>
          if d.source = .node p then
            noticesFor q (d.owner :: d.subscribers) (.streamClosed id .sourceLost (some p))
          else if p ∉ d.sinks then []
          else if d.sinks.all (· == p) = true ∧ d.ownerReceives = false ∧ d.subscribers = [] then
            noticesFor q (d.owner :: d.subscribers) (.streamClosed id .sinksLost (some p))
          else noticesFor q [d.owner] (.sinkRemoved id p)
        | none => [])

/-- A node entry with reason NODE_CHANGED acts on the streams of its reference list alone: it closes the
stream of a SOURCE item, passing over any item after it, and for one SINK item takes one occurrence of the
position out of the sinks or, with no receiver left, closes the stream. The batch is not empty after it, which
starts the gathering of an IDLE controller when it was empty before. Where no stream has two SINK items,
as when the sinks of the staged view were distinct, the notices are: in ascending stream id, STREAM_CLOSED
with NODE_CHANGED or SINKS_LOST to owner and subscribers, SINK_REMOVED to the owner. -/
def Obligations.ChangedEntryFollowsReferences : Prop :=
  ∀ (s : State) (p : Pos) (refs : List (StreamId × RefRole)) (rest : List InternalEntry),
    s.admission.processing = none → s.admission.internal = .changed p refs :: rest →
    ∃ t, exec .nodeEntryNodeChanged s = .next t ∧
      t = { s with
            ports := t.ports, streams := t.streams, turnover := s.gathered
            admission := { s.admission with internal := rest, batchEmpty := false } } ∧
      (∀ id, (t.entry id).outgoing = (s.entry id).outgoing ∧
        (t.entry id).inForce = (s.entry id).inForce) ∧
      (∀ id, (s.entry id).staged = none ∨ (∀ r, (id, r) ∉ refs) → t.entry id = s.entry id) ∧
      (∀ id d, (s.entry id).staged = some d →
        (∀ more, refs.filter (fun r => r.1 == id) = (id, .source) :: more →
          (t.entry id).staged = none ∧ (t.entry id).member = true) ∧
        (refs.filter (fun r => r.1 == id) = [(id, .sink)] → p ∈ d.sinks →
          (t.entry id).staged =
            if d.sinks.length = 1 ∧ d.ownerReceives = false ∧ d.subscribers = [] then none
            else some { d with sinks := d.sinks.erase p })) ∧
      (∀ q, (s.port q).sameButNotices (t.port q)) ∧
      ((∀ id, refs.filter (fun r => r.1 == id) = [] ∨ refs.filter (fun r => r.1 == id) = [(id, .sink)] ∨
          ∃ more, refs.filter (fun r => r.1 == id) = (id, .source) :: more) →
        ∀ q, t.port q = (s.port q).postEach (allStreams.flatMap fun id =>
          match (s.entry id).staged, refs.filter fun r => r.1 == id with
          | some d, (_, .source) :: _ =>
            noticesFor q (d.owner :: d.subscribers) (.streamClosed id .nodeChanged (some p))
          | some d, (_, .sink) :: _ =>
            if p ∉ d.sinks then []
            else if d.sinks.length = 1 ∧ d.ownerReceives = false ∧ d.subscribers = [] then
              noticesFor q (d.owner :: d.subscribers) (.streamClosed id .sinksLost (some p))
            else noticesFor q [d.owner] (.sinkRemoved id p)
          | some _, [] | none, _ => []))

/-! ## Turnover -/

/-- A Flush makes the freeze due in GATHERING, sets the flush marker while a turnover is in flight and the
batch is not empty, and changes nothing else but its answer, the turnover state and the in-force epoch. A
gather counter at 0 in GATHERING makes the freeze claim. A due claim that finds the ring not RUNNING,
or a STALE node whose recorded held epoch is the in-force epoch + 1, leaves the controller WAITING; that a
refresh in progress then goes on is the model's reading (log 40). -/
def Obligations.FreezeIsClaimedOrHeldBack : Prop :=
  (∀ (s : State) (p : Port) (tag : Byte) (f : List Byte), f = frameOf tag 0x13 [] →
    s.pick = some (p, f) → (s.port p).attached = true →
    exec .flush s = .next (State.afterAnswer
      { s with
        turnover :=
          if s.turnover.state = .gathering then { s.turnover with gather := 0, claim := true }
          else if s.turnover.inFlight = true ∧ s.admission.batchEmpty = false then
            { s.turnover with flush := true }
          else s.turnover }
      p f (.done [octet s.turnover.state.code, epochOctet s.turnover.epoch]))) ∧
  (∀ s : State, s.turnover.state = .gathering → s.turnover.gather = 0 →
    exec .gatherCounterExpiry s = .next { s with turnover := { s.turnover with claim := true } }) ∧
  ∀ s : State, s.admission.processing = none → s.admission.internal = [] →
    s.turnover.freezeDue = true →
    (s.ring.state ≠ .running ∨ ∃ p, (s.node p).state = .stale ∧
      (s.node p).held = some (s.turnover.epoch + 1)) →
    exec .freeze s = .next
      { s with turnover := { s.turnover with state := .waiting, gather := 0, claim := false } }

/-- The freeze: the outgoing view is a copy of the staged view, the plan is compiled from it for the next
epoch, the batch empties into the outgoing tickets, and the work list holds the READY positions in
ascending order, marked KEEP for an equal list that is not empty and LOAD otherwise. A refresh in progress is
ended: at once when no exchange of it is outstanding, and otherwise marked ended until that exchange concludes
(the mark is the model's, log 14). -/
def Obligations.FreezeBeginsTurnover : Prop :=
  ∀ s : State, s.admission.processing = none → s.admission.internal = [] →
    s.turnover.freezeDue = true → s.ring.state = .running →
    (∀ p, (s.node p).state = .stale → (s.node p).held ≠ some (s.turnover.epoch + 1)) →
    ∃ t plan, exec .freeze s = .next t ∧ plan = compile s.stagedView (s.turnover.epoch + 1) ∧
      t = { s with
            streams := t.streams, turnover := t.turnover
            plans := { s.plans with outgoing := some plan }
            admission := { s.admission with batchEmpty := true, batchTickets := Table.fill 0 }
            control := { s.control with refresh := t.control.refresh } } ∧
      (∀ x, s.control.exchange = some x → x.user = .refresh →
        t.control.refresh = s.control.refresh.map fun f => { f with ended := true }) ∧
      ((∀ x, s.control.exchange = some x → x.user ≠ .refresh) → t.control.refresh = none) ∧
      (∀ id, t.entry id =
        { s.entry id with outgoing := (s.entry id).staged, member := false }) ∧
      t.turnover =
        { state := if (∀ p, (s.node p).state ≠ .ready) then .switching else .distributing
          gather := 0, flush := false, target := some (s.turnover.epoch + 1)
          epoch := s.turnover.epoch, outTickets := s.admission.batchTickets
          work := t.turnover.work, claim := false } ∧
      t.turnover.work.map (·.position) =
        (allPositions.filter fun p => (s.node p).state == .ready) ∧
      ∀ w ∈ t.turnover.work, w.next = 1 ∧ w.outcome = .opened ∧
        if plan.taps.get w.position = s.plans.inForce.taps.get w.position ∧
            plan.taps.get w.position ≠ [] then w.mark = .keep ∧ w.parts = 1
        else w.mark = .load ∧ 1 ≤ w.parts ∧ (plan.taps.get w.position).length ≤ 3 * w.parts ∧
          (3 * w.parts < (plan.taps.get w.position).length + 3 ∨ w.parts = 1)

/-- Reconciliation, once its claim is granted: the positions of matched nodes, those whose serial one old and
one new entry alone hold of the entries that take part, are moved in the sources and sinks of the staged and
in-force views, and every other position stays. One NODE_CHANGED entry, with the places of the staged view
that named it, waits for each gone node, the in-force plan is derived again, the batch is not empty, and the
ring enters RUNNING with the controller WAITING and its claim made. -/
def Obligations.ReconciliationEntersRunning : Prop :=
  ∀ (s : State) (old : Retained), s.nodes.procedure = .reconciling → s.nodes.retained = some old →
    s.admission.processing = none → s.admission.internal = [] → s.turnover.inFlight = false →
    ∃ (t : State) (found : Pos → Option Pos), exec .reconciliation s = .next t ∧
      (∀ p q, found p = some q ↔ mapsTo old.entries s.nodes.entries p q) ∧
      t = { s with
            ports := t.ports, streams := t.streams
            plans := { s.plans with inForce := compile t.inForceView s.plans.inForce.epoch }
            admission :=
              { s.admission with internal := t.admission.internal, batchEmpty := false }
            turnover := { s.turnover with state := .waiting, gather := 0, claim := true }
            ring := { s.ring with state := .running, misses := 0, shape := 0, breakPos := 0 }
            nodes := { s.nodes with retained := none, procedure := .idle } } ∧
      t.admission.internal =
        (allPositions.filter fun p =>
          ((old.entries.get p).state == .ready || (old.entries.get p).state == .stale) &&
            (found p).isNone).map
          (fun p => .changed p (allStreams.flatMap fun id =>
            match (s.entry id).staged with
            | some d =>
              (if d.source = .node p then [(id, .source)] else []) ++
                (d.sinks.filter (· == p)).map fun _ => (id, .sink)
            | none => [])) ∧
      (let moved (d : Descriptor) : Descriptor :=
        { d with
          source := match d.source with
            | .host => .host
            | .node q => .node ((found q).getD q)
          sinks := sortPositions (d.sinks.map fun q => (found q).getD q) }
      ∀ id, t.entry id =
        { s.entry id with
          staged := (s.entry id).staged.map moved, inForce := (s.entry id).inForce.map moved }) ∧
      ∀ q, t.port q =
        ((s.port q).post (.ringState .running 0 .numbered)).raise .ringChange

/-! ## Cycles -/

/-- A hub cycle that is not the switch cycle carries the in-force epoch, and the TURNOVER flag exactly while
a turnover is in flight. Its record is kept, the cycle count goes on, the gather counter of GATHERING and
the quiet cycles left fall by one, and no port, view, plan or node changes. Its control field is QUIET in
QUIETING, NONE while an attempt is outstanding, the message of an exchange that has no attempt, or else the
first message of a new exchange: of the Node Table procedure, then of distribution, then of a refresh, in
progress or begun at a tick for the lowest STALE node whose list fits its capacity; or else NONE. -/
def Obligations.HubCycleIsSent : Prop :=
  ∀ s : State, s.ring.state ≠ .off → (s.ring.state = .quieting → 0 < s.ring.quietLeft) →
    s.switchDue s.ring.nextCount = false →
    ∃ t awaits, exec .hubCycle s = .next t ∧
      t = { s with
            mover := { s.mover with posts := t.mover.posts, sequences := t.mover.sequences }
            control := t.control
            turnover :=
              { s.turnover with
                gather :=
                  if s.turnover.state = .gathering then s.turnover.gather - 1
                  else s.turnover.gather }
            ring := s.ring.afterCycle s.turnover.epoch awaits t.ring.rgo } ∧
      epochOf t.ring.rgo = s.turnover.epoch ∧ turnoverOf t.ring.rgo = s.turnover.inFlight ∧
      countOf t.ring.rgo = s.ring.nextCount ∧ s.composes t.ring.rgo awaits t.control

/-- Every cycle the hub composes is 256 octets whose header check and payload check are good, of kind HUB,
with the count, epoch and flag it was given. On the line a bit cell changes the level at its start, and a
cell that carries a 1 changes it at its middle as well, so that the cells are read back from the levels. No
run of data cells holds a mark. A cycle of 256 octets that begins with the mark's cell values, sent after any
data cells, is found at the cell at which its mark begins, and its octets are read back: they come as a
BEACON_RECEIVED when they are a beacon with a good header check, and as a RETURN_EVALUATION otherwise. -/
def Obligations.SentCycleReadsBack : Prop :=
  (∀ (flag : Bool) (e : Epoch) (count : CycleCount) (control payload : List Byte),
    control.length = 16 → payload.length = 224 →
    let c := cycleOctets false flag e count 0 0 control payload
    c.length = 256 ∧ headerGood c = true ∧ payloadGood c = true ∧ isBeacon c = false ∧
      countOf c = count ∧ epochOf c = e ∧ turnoverOf c = flag ∧ controlOf c = control ∧
      payloadOf c = payload ∧ c.take 2 = [0xF0, 0x0F]) ∧
  (∀ (level b : Bool) (cells : List Cell),
    levelsOf level (dataCell b :: cells) =
      (!level) :: (if b then level else !level) :: levelsOf (if b then level else !level) cells ∧
    cellsOf level (levelsOf level cells) = cells) ∧
  ∀ (bits : List Bool) (c rest : List Byte) (tail : List Cell),
    receiveCycle (bits.map dataCell) = none ∧
    (c = 0xF0 :: 0x0F :: rest → c.length = 256 →
      receiveCycle (bits.map dataCell ++ cycleCells c ++ tail) = some (bits.length, c) ∧
      (cycleCells c).length = 2048 ∧
      ∀ (first : Nat) (drains : List (List DrainPart)),
        heardOn first (bits.map dataCell ++ cycleCells c ++ tail) drains =
          some (if headerGood c = true ∧ isBeacon c = true then .beaconReceived c
            else .returnEvaluation (first + bits.length) ⟨c, drains⟩))

/-- The switch cycle puts the outgoing views and the outgoing plan in force under the target epoch, and is
sent under them with the flag clear; acknowledged nodes hold the new epoch, READY nodes that acknowledged
nothing become STALE, and the controller goes to IDLE, or to GATHERING with a batch that is not empty. A
post buffer is emptied whose stream's payload size changes or whose view becomes present or absent, gap
counters of receivers added become 0, and the buffers and counters are then as a fill of page 0 leaves them.
The plan that was in force is retired, with its delivery table, while the return of a cycle of its epoch is
awaited, and discarded otherwise (by epoch: log 25). Each port is posted NODE_STATE for the nodes made STALE,
ascending, and SETTLED with its outgoing ticket, if it has one; that NODE_STATE comes ahead of SETTLED in the
queue is the model's order (log 10). No port changes otherwise. The cycle's record is kept under the target epoch
and the cycle count goes on; the control field is composed as in any hub cycle, over the state that the switch
leaves (that order is the model's, log 10). That a port which receives a stream both before and after the switch,
on whatever ground, keeps its gap counter is the model's choice (log 30). -/
def Obligations.SwitchCyclePutsPlanInForce : Prop :=
  ∀ (s : State) (plan : Plan) (target : Epoch), s.ring.state = .running →
    s.turnover.state = .switching → s.ring.nextCount.toNat % 8 = 0 →
    s.turnover.target = some target → s.plans.outgoing = some plan →
    ∃ t awaits, exec .hubCycle s = .next t ∧
      t = { s with
            ports := t.ports, streams := t.streams, plans := t.plans, turnover := t.turnover
            nodes := { s.nodes with entries := t.nodes.entries }, mover := t.mover, control := t.control
            ring := s.ring.afterCycle target awaits t.ring.rgo } ∧
      State.composes { t with ring := s.ring, control := s.control } t.ring.rgo awaits t.control ∧
      (∀ id, t.entry id =
        { s.entry id with inForce := (s.entry id).outgoing, outgoing := none }) ∧
      t.plans.inForce = plan ∧ t.plans.outgoing = none ∧
      ((∃ r ∈ s.ring.sent, r.epoch = s.plans.inForce.epoch) →
        t.plans.retired = some s.plans.inForce ∧ t.mover.retiredDelivery = some s.mover.delivery) ∧
      ((∀ r ∈ s.ring.sent, r.epoch ≠ s.plans.inForce.epoch) →
        t.plans.retired = none ∧ t.mover.retiredDelivery = none) ∧
      t.turnover =
        { state := if s.admission.batchEmpty then .idle else .gathering
          gather :=
            if s.admission.batchEmpty = true ∨ s.turnover.flush = true then 0
            else s.ring.gatherWindow
          flush := false, target := none, epoch := target, outTickets := Table.fill 0, work := []
          claim := false } ∧
      (∀ w ∈ s.turnover.work, w.outcome = .acknowledged →
        t.node w.position = { s.node w.position with held := some target }) ∧
      (∀ p, (∀ w ∈ s.turnover.work, w.position = p → w.outcome ≠ .acknowledged) →
        t.node p = if (s.node p).state = .ready then { s.node p with state := .stale } else s.node p) ∧
      epochOf t.ring.rgo = target ∧ turnoverOf t.ring.rgo = false ∧
      countOf t.ring.rgo = s.ring.nextCount ∧ t.mover.delivery = deliveryTableOf s.outgoingView ∧
      (∀ id,
        let emptied : Bool := match (s.entry id).inForce, (s.entry id).outgoing with
          | none, none => false
          | some d, some d' => d.payload != d'.payload
          | none, some _ | some _, none => true
        let buffer := if emptied then .empty else s.mover.posts.get id
        let counter := if (s.entry id).inForce = none ∧ (s.entry id).outgoing ≠ none then 0
          else s.mover.sequences.get id
        ((∃ pl d, pl ∈ plan.layouts.get 0 ∧ pl.stream = id ∧ (s.entry id).outgoing = some d ∧
            d.source = .host) →
          t.mover.posts.get id = bufferAfter buffer ∧
          t.mover.sequences.get id = sequenceAfter buffer counter) ∧
        ((∀ pl ∈ plan.layouts.get 0, pl.stream ≠ id) ∨
            (∀ d, (s.entry id).outgoing = some d → d.source ≠ .host) →
          t.mover.posts.get id = buffer ∧ t.mover.sequences.get id = counter)) ∧
      ∀ q,
        let told := { s.port q with gaps := (t.port q).gaps }
        let told := (allPositions.filter fun p => (s.node p).state == .ready &&
            s.turnover.work.all fun w => w.position != p || w.outcome != .acknowledged).foldl
          (fun h p => (h.post (.nodeState p .stale (s.node p).held (s.node p).failures .switch)).raise
            .ringChange) told
        let receives (v : Option Descriptor) : Prop := ∃ d p, v = some d ∧ d.source = .node p ∧
          (d.owner = q ∧ d.ownerReceives = true ∨ q ∈ d.subscribers)
        t.port q =
          (if s.turnover.outTickets.get q = 0 then told
            else told.post (.settled (s.turnover.outTickets.get q) target)) ∧
        ∀ id,
          (receives (s.entry id).outgoing ∧ ¬ receives (s.entry id).inForce →
            (t.port q).gaps.get id = 0) ∧
          (¬ receives (s.entry id).outgoing ∨ receives (s.entry id).inForce →
            (t.port q).gaps.get id = (s.port q).gaps.get id)

/-- A slot filled for a HOST source: a NEW sample goes out FRESH under the next sequence and the buffer is
HELD; a HELD one goes out REPEATED under REPEAT and as VOID under VOID; an EMPTY buffer sends VOID. Every
hub cycle carries, at each placement of its page, that slot, or for a NODE source one of status VOID,
sequence 0 and zero payload, all with the tag of the epoch it carries; every other octet of the payload area
is 0. The switch cycle does so under the views and the plan it puts in force. Buffers and counters change for
HOST streams of the page alone. -/
def Obligations.FillFollowsBuffer : Prop :=
  (∀ (d : Descriptor) (n : BitVec 4) (tag : BitVec 2) (x : List Byte),
    (hostSlot d (.fresh x) n tag = slotStatus 1 (n + 1) tag :: x ∧ sequenceAfter (.fresh x) n = n + 1 ∧
      bufferAfter (.fresh x) = .held x) ∧
    (d.policy = .again → hostSlot d (.held x) n tag = slotStatus 2 n tag :: x) ∧
    (d.policy = .void → hostSlot d (.held x) n tag = slotStatus 0 n tag :: zeros d.payload) ∧
    hostSlot d .empty n tag = slotStatus 0 n tag :: zeros d.payload ∧
    sequenceAfter (.held x) n = n ∧ bufferAfter (.held x) = .held x ∧
    sequenceAfter .empty n = n ∧ bufferAfter .empty = .empty) ∧
  ∀ s : State, s.ring.state ≠ .off → (s.ring.state = .quieting → 0 < s.ring.quietLeft) →
    s.plansMatch → s.pagesWithin → s.postsFit →
    ∃ t, exec .hubCycle s = .next t ∧
      (let sent := payloadOf t.ring.rgo
      let page := t.plans.inForce.layouts.get (pageOf s.ring.nextCount)
      let tag := epochTag t.turnover.epoch
      sent.length = 224 ∧
      (∀ pl ∈ page, ∃ d, (t.entry pl.stream).inForce = some d ∧
        (d.source ≠ .host →
          (sent.drop pl.offset).take pl.length = slotStatus 0 0 tag :: zeros d.payload) ∧
        (d.source = .host →
          (s.switchDue s.ring.nextCount = false →
            (sent.drop pl.offset).take pl.length =
              hostSlot d (s.mover.posts.get pl.stream) (s.mover.sequences.get pl.stream) tag) ∧
          (s.switchDue s.ring.nextCount = true →
            (sent.drop pl.offset).take pl.length =
              match (s.entry pl.stream).inForce with
              | none => hostSlot d .empty 0 tag
              | some d' =>
                if d'.payload = d.payload then
                  hostSlot d (s.mover.posts.get pl.stream) (s.mover.sequences.get pl.stream) tag
                else hostSlot d .empty (s.mover.sequences.get pl.stream) tag))) ∧
      (∀ i, i < 224 → (∀ pl ∈ page, i < pl.offset ∨ pl.offset + pl.length ≤ i) → octetAt sent i = 0) ∧
      (s.switchDue s.ring.nextCount = false → ∀ id,
        ((∃ pl d, pl ∈ page ∧ pl.stream = id ∧ (s.entry id).inForce = some d ∧ d.source = .host) →
          t.mover.posts.get id = bufferAfter (s.mover.posts.get id) ∧
          t.mover.sequences.get id =
            sequenceAfter (s.mover.posts.get id) (s.mover.sequences.get id)) ∧
        ((∀ pl ∈ page, pl.stream ≠ id) ∨
            (∀ d, (s.entry id).inForce = some d → d.source ≠ .host) →
          t.mover.posts.get id = s.mover.posts.get id ∧
          t.mover.sequences.get id = s.mover.sequences.get id)))

/-- With no quiet cycle left, the ring goes to its quiet destination: NUMBERING with a numbering under way,
or OFF, where the Stream Table, the plans, the batch, the turnover, the Node Table, the Control Channel
and the Slot Mover are as after a reset; the ticket counter, the quotas, the cycle count, the ring
parameters and the delivery queues stay. On entry into OFF each port is posted, in ascending stream id, one
STREAM_CLOSED with RING_STOPPED for each stream whose staged or in-force view names it as owner or subscriber,
and then RING_STATE with OFF and STOPPED; RING_DOWN is raised, and its gap counters are 0. -/
def Obligations.QuietCyclesEndAtDestination : Prop :=
  ∀ s : State, s.ring.state = .quieting → s.ring.quietLeft = 0 →
    (s.ring.quietDest = some .numbering →
      exec .quietCyclesEnd s = .next
        { s with
          ring := { s.ring with state := .numbering, quietDest := none }
          nodes := { s.nodes with procedure := .numbering 0 }
          ports := s.ports.map fun h =>
            h.post (.ringState .numbering s.ring.breakPos .start) }) ∧
    (s.ring.quietDest = some .off →
      ∃ t, exec .quietCyclesEnd s = .next t ∧
        t = { s with
              ports := t.ports, streams := Table.fill Entry.free, plans := Plans.reset
              admission :=
                { s.admission with
                  internal := [], batchEmpty := true, batchTickets := Table.fill 0 }
              turnover := Turnover.reset, nodes := Nodes.reset, mover := Mover.reset
              control := { s.control with exchange := none, attempt := none, refresh := none }
              ring :=
                { Ring.reset with
                  rate := s.ring.rate, nextCount := s.ring.nextCount
                  missLimit := s.ring.missLimit, healCount := s.ring.healCount
                  retryLimit := s.ring.retryLimit, gatherWindow := s.ring.gatherWindow
                  nextCell := s.ring.nextCell } } ∧
        ∀ q,
          let told := (s.port q).postEach (allStreams.flatMap fun id =>
            if ∃ d ∈ (s.entry id).staged.toList ++ (s.entry id).inForce.toList,
                d.owner = q ∨ q ∈ d.subscribers then [.streamClosed id .ringStopped none]
            else [])
          t.port q =
            (({ told with gaps := Table.fill 0 } : HostPort).post (.ringState .off 0 .stopped)).raise
              .ringDown)

/-! ## Returns -/

/-- A return that is missed, of a cycle that carries no outstanding attempt, in every ring state in which cycles
are sent: in RUNNING, below the miss limit, it raises the miss count and sets the break position; in BROKEN it
ends the heal run and sets the break position; in QUIETING, NUMBERING, IDENTIFYING and HALTED it changes no
counter. It raises the gap counter of each listed ATTACHED port for each stream of the cycle's page. A good
beacon does the same at once, whenever its mark comes, and the break position is then its origin. The mark of a
cycle that a beacon concluded, arriving later with a good header check, is not accepted for another cycle:
nothing changes (it is told by its cycle count, which the model keeps, log 32). In DISTRIBUTING an OPEN work
item that stands first with its node not READY is SKIPPED (that it is done at the return is log 11). -/
def Obligations.MissCountsAndLeavesGaps : Prop :=
  ∀ (s : State) (r : CycleRecord) (rest : List CycleRecord), s.ring.sent = r :: rest →
    (∀ (octets : List Byte) (cell : Nat) (drains : List (List DrainPart)), headerGood octets = true →
      isBeacon octets = false → countOf octets ≠ r.count → countOf octets ∈ s.ring.beaconed →
      exec (.returnEvaluation cell ⟨octets, drains⟩) s = .next s) ∧
    ∀ (c : Instr) (g : Ring), s.ring.state ≠ .off → s.decidesNothing r → s.returnsMissed r rest c g →
      ∃ t, exec c s = .next t ∧
        t = { s with
              ports := t.ports, ring := g, turnover := t.turnover
              plans := { s.plans with retired := t.plans.retired }
              mover := { s.mover with retiredDelivery := t.mover.retiredDelivery } } ∧
        s.goesOn t s.turnover.work false ∧ s.retiresAfter t rest ∧ s.leavesGaps t r ∧
        ∀ q, t.port q = { s.port q with gaps := (t.port q).gaps }

/-- The miss that brings the miss count to the miss limit, with a beacon or without, takes the ring to BROKEN,
with every exchange and refresh dropped: the cycle that carries a dropped attempt no longer awaits its reply,
and every other record of an awaited cycle stays. The break position is the beacon's origin, or 16 when there is
no beacon and it was 0. A turnover in flight is abandoned, with its tickets merged into the batch, its differing
entries members of it and no outgoing view; the views staged and in force stay. The nodes that a verification
round has not yet concluded, if READY, become STALE. Each port is posted NODE_STATE for these nodes, then
RING_STATE with BROKEN and MISSES, and RING_DOWN is raised (R142, R105). The gap counters are raised as at any
miss, and no port changes otherwise. -/
def Obligations.MissLimitBreaksRing : Prop :=
  ∀ (s : State) (r : CycleRecord) (rest : List CycleRecord) (c : Instr) (origin : Option (Fin 17)),
    s.ring.state = .running → s.ring.sent = r :: rest → s.ring.missLimit ≤ s.ring.misses + 1 →
    missedBy c origin →
    (∀ x, s.control.exchange = some x → x.user = .verification ∨ x.user = .refresh ∨
      x.user = .distribution ∧ s.turnover.inFlight = true) →
    s.nodes.procedure.left.Nodup →
    let brk : Fin 17 := origin.getD (if s.ring.breakPos = 0 then 16 else s.ring.breakPos)
    ∃ t, exec c s = .next t ∧ s.leavesGaps t r ∧
      s.leavesRunning t rest s.nodes.procedure.left
        { s.ring with
          state := .broken, sent := s.sentWithoutAttempt rest, misses := s.ring.misses + 1
          heal := 0, healOdd := false, breakPos := brk
          beaconed := if origin = none then s.ring.beaconed else r.count :: s.ring.beaconed }
        (.ringState .broken brk .misses)

/-- A good return of a cycle that carries no outstanding attempt, its mark in the window of its cycle, in every
ring state in which cycles are sent. In RUNNING it sets the miss count and the break position to 0, and the
shape-mismatch count to 0 when its hop count is the node count, or else, the first in a row, to 1; in BROKEN,
below the heal count, it raises the heal run; in QUIETING, NUMBERING, IDENTIFYING and HALTED it changes no
counter. A known L follows it when it is more than 4 bit cells off. A listed ATTACHED port with room gets one
record of the slot, with its gap count, and its gap counter becomes 0. The retired plan is kept with its
delivery table while a cycle of its epoch is still awaited, and discarded once none is (by epoch: log 25). In
DISTRIBUTING an OPEN work item that stands first with its node not READY is SKIPPED (log 11). -/
def Obligations.GoodReturnIsDelivered : Prop :=
  ∀ (s : State) (r : CycleRecord) (rest : List CycleRecord) (plan : Plan) (lines : DeliveryTable)
    (pl : Placement) (octets : List Byte) (cell : Nat) (g : Ring) (q : Port) (x : Record),
    s.ring.state ≠ .off → s.ring.sent = r :: rest → s.ring.hears r cell →
    s.returnsGood r rest (fun d => d = cell) octets (.returnEvaluation cell ⟨octets, []⟩) g →
    s.decidesNothing r →
    s.planFor r.epoch = some (plan, lines) → plan.layouts.get (pageOf r.count) = [pl] →
    (listedPorts lines pl.stream).Nodup → q ∈ listedPorts lines pl.stream →
    (s.port q).attached = true →
    slotTag (octetAt octets (24 + pl.offset)) = epochTag r.epoch →
    slotValidity (octetAt octets (24 + pl.offset)) ≠ .void →
    x = { stream := pl.stream, validity := slotValidity (octetAt octets (24 + pl.offset)),
          sequence := slotSequence (octetAt octets (24 + pl.offset)), cycle := r.count,
          gap := (s.port q).gaps.get pl.stream,
          payload := (octets.drop (25 + pl.offset)).take (pl.length - 1) } →
    occupancy (s.port q).delivery + x.size ≤ 4096 →
    ∃ t, exec (.returnEvaluation cell ⟨octets, []⟩) s = .next t ∧
      t = { s with
            ports := t.ports, turnover := t.turnover
            ring :=
              { g with
                latency := s.ring.latency.map fun l =>
                  if l ≤ cell - r.start + 4 ∧ cell - r.start ≤ l + 4 then l else cell - r.start }
            plans := { s.plans with retired := t.plans.retired }
            mover := { s.mover with retiredDelivery := t.mover.retiredDelivery } } ∧
      s.goesOn t s.turnover.work false ∧ s.retiresAfter t rest ∧
      (t.port q).delivery = (s.port q).delivery ++ [x] ∧
      t.port q =
        { s.port q with
          delivery := (t.port q).delivery, events := (t.port q).events
          gaps := (s.port q).gaps.set pl.stream 0 } ∧
      ((s.port q).events.threshold ≤ occupancy (t.port q).delivery →
        ((t.port q).events.kinds.get 5).pending = true) ∧
      ∀ p, p ∉ listedPorts lines pl.stream → t.port p = s.port p

/-- The records of one return are made one at a time. In every ring state in which cycles are sent, on a good or
damaged return in its window, of a cycle that carries no outstanding attempt, that leaves the ring in its state,
each placement of the page that lists a port gives it, while it is ATTACHED, a record: of the slot when the
return is good and the slot's tag is the cycle's, with no payload when it is VOID; FOREIGN for another tag;
DAMAGED for a damaged return. A record with room takes the gap count and raises DELIVERY at the threshold; one
without is dropped, counted and raises OVERFLOW. A record drained while the return is handled makes room for the
records that follow. -/
def Obligations.ReturnsMakeRecords : Prop :=
  ∀ (s : State) (r : CycleRecord) (rest : List CycleRecord) (plan : Plan) (lines : DeliveryTable)
    (octets : List Byte) (cell : Nat) (g : Ring) (c : Instr) (q : Port),
    s.ring.state ≠ .off → s.ring.sent = r :: rest → s.ring.hears r cell →
    (s.returnsGood r rest (fun d => d = cell) octets c g ∨
      s.returnsDamaged r rest (fun d => d = cell) octets c g) →
    s.decidesNothing r →
    s.planFor r.epoch = some (plan, lines) → (∀ id, (listedPorts lines id).Nodup) →
    let bare (pl : Placement) (v : Validity) : Record :=
      { stream := pl.stream, validity := v, sequence := 0, cycle := r.count, gap := 0, payload := [] }
    let record (pl : Placement) : Record :=
      let status := octetAt octets (24 + pl.offset)
      if headerGood octets = true ∧ countOf octets = r.count ∧ payloadGood octets = true then
        if slotTag status = epochTag r.epoch then
          { bare pl (slotValidity status) with
            sequence := slotSequence status
            payload :=
              if slotValidity status = .void then []
              else (octets.drop (25 + pl.offset)).take (pl.length - 1) }
        else bare pl .foreign
      else bare pl .damaged
    let made (h : HostPort) (pl : Placement) : HostPort :=
      if h.attached = false then h
      else if occupancy h.delivery + (record pl).size ≤ 4096 then
        let h' : HostPort :=
          { h with
            delivery := h.delivery ++ [{ record pl with gap := h.gaps.get pl.stream }]
            gaps := h.gaps.set pl.stream 0 }
        if h'.events.threshold ≤ occupancy h'.delivery then h'.raise .delivery else h'
      else
        ({ h with
          gaps := h.gaps.set pl.stream (min 255 (h.gaps.get pl.stream + 1)) } : HostPort).raise .overflow
    (∃ t, exec c s = .next t ∧
      t.port q = ((plan.layouts.get (pageOf r.count)).filter fun pl =>
        (listedPorts lines pl.stream).contains q).foldl made (s.port q)) ∧
    ∀ (a b : Placement) (head : Record) (queue : List Record) (low : BitVec 4),
      plan.layouts.get (pageOf r.count) = [a, b] → listedPorts lines a.stream = [q] →
      listedPorts lines b.stream = [q] → s.listens q → (s.port q).delivery = head :: queue →
      ∃ t, exec (.returnEvaluation cell
            ⟨octets, [[], [⟨q, txnBits 3 low (zeros head.size), true⟩]]⟩) s = .next t ∧
        t.port q =
          (let h := made (s.port q) a
          made (({ h with delivery := h.delivery.tail } : HostPort).served (h.statusOctet s.running)
            head.octets) b)

/-- A good return of the outstanding NUMBER with counter c of 1 to 16 succeeds: n is c − 1, L is the delay of
the mark, positions 1 to n are UNIDENTIFIED and the others ABSENT, every other value of their entries cleared. The
ring enters IDENTIFYING with position 1 asked first, or with n = 0 enters RUNNING, after reconciliation when it was
a restart; RING_STATE with NUMBERED tells every port. With a counter above 16 the ring halts with TOO_MANY. An
attempt has failed whose cycle is missed, with or without a beacon, whose return is damaged, or whose good return
holds no NUMBER with its sequence number (or one with counter 0, log 9); the third failure halts the ring with
NO_RETURN. A failure leaves L, n and the entries as they were. -/
def Obligations.NumberingCountsNodes : Prop :=
  ∀ (s : State) (r : CycleRecord) (rest : List CycleRecord) (x : Exchange) (a : Attempt) (e : Epoch)
    (k : Nat), s.ring.state = .numbering → s.nodes.procedure = .numbering k →
    s.attempts r rest x a → x.message = .number e → s.turnover.inFlight = false →
    let left (t : State) (ring : Ring) (nodes : Nodes) (claim : Bool) : Prop :=
      t = { s with
            ports := t.ports, ring := ring, nodes := nodes
            turnover := { s.turnover with claim := s.turnover.claim || claim }
            control := { s.control with exchange := none, attempt := none }
            plans := { s.plans with retired := t.plans.retired }
            mover := { s.mover with retiredDelivery := t.mover.retiredDelivery } } ∧
        s.retiresAfter t rest
    let told (t : State) (f : HostPort → HostPort) : Prop :=
      s.nothingListed r → ∀ q, t.port q = f (s.port q)
    let halts (t : State) (g : Ring) (reason : RingReason) : Prop :=
      left t { g with state := .halted } { s.nodes with procedure := .idle, retained := none } false ∧
        told t fun h => (h.post (.ringState .halted s.ring.breakPos reason)).raise .ringDown
    (∀ (octets : List Byte) (cell : Nat), s.ring.hears r cell → goodReturnOf r octets →
      octetAt octets 7 = 0x01 → octetAt octets 9 = a.sequence →
      let ring : Ring := { s.ring with sent := rest, latency := some (cell - r.start) }
      let nodes (n : Fin 16) (procedure : Procedure) : Nodes :=
        { entries := Table.tabulate fun p =>
            NodeEntry.blank (if p.val < n.val then .unidentified else .absent)
          count := n, retained := s.nodes.retained, procedure := procedure }
      (∀ n : Fin 16, numAt octets 10 = n.val + 1 →
        ∃ t, exec (.returnEvaluation cell ⟨octets, []⟩) s = .next t ∧
          (n ≠ 0 → left t { ring with state := .identifying } (nodes n (.identifying 0)) false ∧
            told t fun h => h.post (.ringState .identifying s.ring.breakPos .numbered)) ∧
          (n = 0 → s.nodes.retained = none →
            left t { ring with state := .running, misses := 0, shape := 0, breakPos := 0 }
              (nodes 0 .idle) (decide (s.turnover.state = .waiting)) ∧
            told t fun h => (h.post (.ringState .running 0 .numbered)).raise .ringChange) ∧
          (n = 0 → s.nodes.retained ≠ none →
            left t ring (nodes 0 .reconciling) false ∧ told t fun h => h)) ∧
      (17 ≤ numAt octets 10 → ∃ t, exec (.returnEvaluation cell ⟨octets, []⟩) s = .next t ∧
        halts t { s.ring with sent := rest } .tooMany)) ∧
    ∀ (c : Instr) (g : Ring), s.failsAttempt r rest x a (s.ring.hears r) c g →
      ∃ t, exec c s = .next t ∧
        (k < 2 → left t g { s.nodes with procedure := .numbering (k + 1) } false ∧ told t fun h => h) ∧
        (2 ≤ k → halts t g .noReturn)

/-- How an exchange of distribution concludes at the return of its attempt. LOADACK moves the item to its next
part, and LOADACK to the last part or KEEPACK makes it ACKNOWLEDGED. An attempt has failed whose cycle is
missed, whose return is damaged, or whose good return does not answer the message, be it the message as sent,
another kind, or a reply with another sequence number, responder or body; it is sent again while attempts are
left. A NAK restarts the item from part 1 and counts as one. With its attempts spent the item and its node
become STALE and every port is posted NODE_STATE. An OPEN item that then stands first with its node not READY is
SKIPPED (log 11), and so on to one whose node is READY. With no item OPEN the state is SWITCHING. -/
def Obligations.DistributionConcludes : Prop :=
  ∀ (s : State) (r : CycleRecord) (rest : List CycleRecord) (x : Exchange) (a : Attempt) (plan : Plan)
    (before after' : List WorkItem) (w : WorkItem) (e : Epoch) (taps : List Tap),
    s.ring.state = .running → s.turnover.state = .distributing → s.plans.outgoing = some plan →
    s.attempts r rest x a → s.nothingListed r → x.user = .distribution →
    (x.message = .tapload w.position e w.next w.parts taps ∨ x.message = .keep w.position e) →
    s.turnover.work = before ++ w :: after' → w.outcome = .opened →
    (∀ v ∈ before, v.outcome ≠ .opened) → (s.node w.position).state = .ready →
    let left (t : State) (g : Ring) (x' : Option Exchange) (w' : WorkItem) : Prop :=
      t = { s with
            ports := t.ports, nodes := t.nodes, ring := g, turnover := t.turnover
            control := { s.control with exchange := x', attempt := none }
            plans := { s.plans with retired := t.plans.retired }
            mover := { s.mover with retiredDelivery := t.mover.retiredDelivery } } ∧
        s.goesOn t (before ++ w' :: after') false ∧ s.retiresAfter t rest
    let same (t : State) : Prop := t.ports = s.ports ∧ t.nodes = s.nodes
    let naks (octets : List Byte) : Prop :=
      saysReply octets a 0x23 w.position e ∧ numAt octets 11 = w.next ∧
        x.message = .tapload w.position e w.next w.parts taps
    ∀ (c : Instr) (g : Ring) (octets : List Byte),
      (s.returnsGood r rest (s.ring.hearsAtLatency r) octets c g →
        (saysReply octets a 0x21 w.position e ∧ numAt octets 11 = w.next ∧
            x.message = .tapload w.position e w.next w.parts taps →
          ∃ t, exec c s = .next t ∧ same t ∧ left t g none
            (if w.next < w.parts then { w with next := w.next + 1 }
              else { w with outcome := .acknowledged })) ∧
        (saysReply octets a 0x22 w.position e ∧ x.message = .keep w.position e ∧ w.parts ≤ w.next →
          ∃ t, exec c s = .next t ∧ same t ∧ left t g none { w with outcome := .acknowledged }) ∧
        (naks octets → x.failed + 1 ≤ x.limit →
          ∃ t n, exec c s = .next t ∧ same t ∧
            left t g (some { x with
                failed := x.failed + 1
                message := .tapload w.position plan.epoch 1 n
                  ((plan.taps.get w.position).take 3) })
              { w with next := 1 } ∧
            1 ≤ n ∧ (plan.taps.get w.position).length ≤ 3 * n ∧
            (n = 1 ∨ 3 * n < (plan.taps.get w.position).length + 3))) ∧
      (s.failsAttempt r rest x a (s.ring.hearsAtLatency r) c g → x.failed + 1 ≤ x.limit →
        ∃ t, exec c s = .next t ∧ same t ∧ left t g (some { x with failed := x.failed + 1 }) w) ∧
      (s.failsAttempt r rest x a (s.ring.hearsAtLatency r) c g ∨
          s.returnsGood r rest (s.ring.hearsAtLatency r) octets c g ∧ naks octets →
        x.limit < x.failed + 1 →
        ∃ t, exec c s = .next t ∧ left t g none { w with outcome := .stale } ∧
          t.nodes =
            { s.nodes with
              entries := s.nodes.entries.modify w.position fun e => { e with state := .stale } } ∧
          ∀ q, t.port q = ((s.port q).post (.nodeState w.position .stale (s.node w.position).held
            (s.node w.position).failures .distribution)).raise .ringChange)

/-- How an exchange of a refresh concludes while the ring is RUNNING. LOADACK to the last part makes the node
READY, holding the in-force epoch, with a failure count of 0, and every port is posted NODE_STATE; LOADACK to an
earlier part goes on to the next. A failed attempt is sent again while attempts are left; a NAK then starts again
from part 1 and counts as one. With its attempts spent the refresh fails: the failure count rises, and at 4 the
node is LOST, every port is posted NODE_STATE and a node entry is queued. Once a freeze has ended the refresh, its
exchange is its last: LOADACK to the last part records the in-force epoch as held, and the node stays STALE;
LOADACK to an earlier part, or a NAK with attempts left, does nothing to the node; a failure counts as before. The
epoch recorded is the one in force at that conclusion (log 14). A node that held the epoch guard and changes its
state or its held epoch makes a WAITING controller claim its freeze. In DISTRIBUTING an OPEN work item that stands
first with its node not READY is SKIPPED (log 11). -/
def Obligations.RefreshConcludes : Prop :=
  ∀ (s : State) (r : CycleRecord) (rest : List CycleRecord) (x : Exchange) (a : Attempt) (f : Refresh)
    (e : Epoch) (taps : List Tap),
    s.ring.state = .running → s.attempts r rest x a → s.nothingListed r → x.user = .refresh →
    s.control.refresh = some f → (f.ended = false → s.turnover.inFlight = false) →
    x.message = .tapload f.position e f.next f.parts taps → (s.node f.position).state = .stale →
    let left (t : State) (g : Ring) (x' : Option Exchange) (refresh : Option Refresh) (u : NodeEntry)
        (claim : Bool) : Prop :=
      t = { s with
            ports := t.ports, ring := g
            nodes := { s.nodes with entries := s.nodes.entries.set f.position u }
            control := { s.control with exchange := x', attempt := none, refresh := refresh }
            turnover := t.turnover
            admission := { s.admission with internal := t.admission.internal }
            plans := { s.plans with retired := t.plans.retired }
            mover := { s.mover with retiredDelivery := t.mover.retiredDelivery } } ∧
        s.goesOn t s.turnover.work claim ∧ s.retiresAfter t rest
    let old := s.node f.position
    let guard : Bool := decide (s.turnover.state = .waiting ∧ old.held = some (s.turnover.epoch + 1))
    let same (t : State) : Prop := t.ports = s.ports ∧ t.admission = s.admission
    let told (t : State) (u : NodeEntry) (cause : NodeCause) : Prop := ∀ q, t.port q =
      ((s.port q).post (.nodeState f.position u.state u.held u.failures cause)).raise .ringChange
    ∀ (c : Instr) (g : Ring) (octets : List Byte),
      let hears (kind : Byte) : Prop :=
        s.returnsGood r rest (s.ring.hearsAtLatency r) octets c g ∧
          saysReply octets a kind f.position e ∧ numAt octets 11 = f.next
      let fails : Prop := s.failsAttempt r rest x a (s.ring.hearsAtLatency r) c g
      (hears 0x21 → f.next < f.parts → ∃ t, exec c s = .next t ∧ same t ∧
        left t g none (if f.ended then none else some { f with next := f.next + 1 }) old false) ∧
      (hears 0x21 → f.parts ≤ f.next → f.ended = false → ∃ t u, exec c s = .next t ∧
        u = { old with state := .ready, held := some s.turnover.epoch, failures := 0 } ∧
        left t g none none u guard ∧ told t u .refresh ∧ t.admission = s.admission) ∧
      (hears 0x21 → f.parts ≤ f.next → f.ended = true → ∃ t, exec c s = .next t ∧ same t ∧
        left t g none none { old with held := some s.turnover.epoch } guard) ∧
      (fails → x.failed + 1 ≤ x.limit → ∃ t, exec c s = .next t ∧ same t ∧
        left t g (some { x with failed := x.failed + 1 }) (some f) old false) ∧
      (hears 0x23 → x.failed + 1 ≤ x.limit → f.ended = false →
        ∃ t n, exec c s = .next t ∧ same t ∧
          left t g (some { x with
              failed := x.failed + 1
              message := .tapload f.position s.plans.inForce.epoch 1 n
                ((s.plans.inForce.taps.get f.position).take 3) })
            (some { f with next := 1 }) old false ∧
          1 ≤ n ∧ (s.plans.inForce.taps.get f.position).length ≤ 3 * n ∧
          (n = 1 ∨ 3 * n < (s.plans.inForce.taps.get f.position).length + 3)) ∧
      (hears 0x23 → x.failed + 1 ≤ x.limit → f.ended = true → ∃ t, exec c s = .next t ∧ same t ∧
        left t g none none old false) ∧
      (fails ∨ hears 0x23 → x.limit < x.failed + 1 →
        (old.failures + 1 < 4 → ∃ t, exec c s = .next t ∧ same t ∧
          left t g none none { old with failures := old.failures + 1 } false) ∧
        (4 ≤ old.failures + 1 →
          (∀ i ∈ s.admission.internal, i.sameSubject (.lost f.position) = false) →
          ∃ t u, exec c s = .next t ∧ u = { old with state := .lost, failures := old.failures + 1 } ∧
            left t g none none u guard ∧ told t u .refreshFailed ∧
            t.admission.internal = s.admission.internal ++ [.lost f.position]))

/-- How an IDENTIFY of identification concludes. A matching IDENTITY, whatever the hop count of its return (that a
hop-count mismatch does not fail the attempt is the model's choice, log 37), gives the entry its identity, its held
epoch, a failure count of 0, and READY for the in-force epoch or STALE for another. An attempt has failed whose
cycle is missed, whose return is damaged, or whose good return does not answer the message, be it the message as
sent, another kind, or a reply with another sequence number, responder or body; it is sent again while attempts are
left, and with them spent the entry is LOST. The next position is then asked; after the last, the ring enters
RUNNING, or after a restart the reconciliation claim is made. -/
def Obligations.IdentificationConcludes : Prop :=
  ∀ (s : State) (r : CycleRecord) (rest : List CycleRecord) (x : Exchange) (a : Attempt) (p : Pos),
    s.ring.state = .identifying → s.nodes.procedure = .identifying p → s.attempts r rest x a →
    s.nothingListed r → x.user = .identification → x.message = .identify p →
    s.turnover.inFlight = false →
    let left (t : State) (g : Ring) (x' : Option Exchange) (nodes : Nodes) (claim : Bool) : Prop :=
      t = { s with
            ports := t.ports, ring := g, nodes := nodes
            turnover := { s.turnover with claim := s.turnover.claim || claim }
            control := { s.control with exchange := x', attempt := none }
            plans := { s.plans with retired := t.plans.retired }
            mover := { s.mover with retiredDelivery := t.mover.retiredDelivery } } ∧
        s.retiresAfter t rest
    ∀ (c : Instr) (g : Ring),
      (s.failsAttempt r rest x a (s.ring.hearsAtLatency r) c g → x.failed + 1 ≤ x.limit →
        ∃ t, exec c s = .next t ∧ t.ports = s.ports ∧
          left t g (some { x with failed := x.failed + 1 }) s.nodes false) ∧
      ∀ (octets : List Byte) (i : Identity) (held : Option Epoch) (u : NodeEntry),
        (s.returnsGood r rest (s.ring.hearsAtLatency r) octets c g ∧ saysIdentity octets a p i held ∧
            u = { state := if held = some s.turnover.epoch then .ready else .stale
                  identity := some i, held := held, failures := 0 } ∨
          s.failsAttempt r rest x a (s.ring.hearsAtLatency r) c g ∧ x.limit < x.failed + 1 ∧
            u = { s.node p with state := .lost }) →
        let nodes (procedure : Procedure) : Nodes :=
          { s.nodes with entries := s.nodes.entries.set p u, procedure := procedure }
        ∃ t, exec c s = .next t ∧
          (∀ q : Pos, q.val = p.val + 1 → q.val < s.nodes.count.val →
            left t g none (nodes (.identifying q)) false ∧ t.ports = s.ports) ∧
          (s.nodes.count.val ≤ p.val + 1 → s.nodes.retained ≠ none →
            left t g none (nodes .reconciling) false ∧ t.ports = s.ports) ∧
          (s.nodes.count.val ≤ p.val + 1 → s.nodes.retained = none →
            left t { g with state := .running, misses := 0, shape := 0, breakPos := 0 } none
              (nodes .idle) (decide (s.turnover.state = .waiting)) ∧
            ∀ q, t.port q = ((s.port q).post (.ringState .running 0 .numbered)).raise .ringChange)

/-- How an IDENTIFY of a verification round concludes in RUNNING. With the serial as stored the entry becomes
READY with a failure count of 0 for the in-force epoch and STALE for another, with the epoch recorded. An
attempt has failed whose cycle is missed, whose return is damaged, or whose good return does not answer the
message, be it the message as sent, another kind, or a reply with another sequence number, responder or body; it
is sent again while attempts are left, and with them spent the entry becomes STALE. A change of state posts
NODE_STATE, and the next position is asked; a node that held the epoch guard and changes its state or its held
epoch makes a WAITING controller claim its freeze. A work item that stands first while its node is not READY is
SKIPPED (log 11), and with no item OPEN the state is SWITCHING. With another serial the entry stays, those of
the round not yet concluded that are READY become STALE, and the ring halts with SHAPE: a turnover in flight is
abandoned, a refresh ends, and each port is posted NODE_STATE for these nodes and then RING_STATE, and RING_DOWN
is raised. -/
def Obligations.VerificationConcludes : Prop :=
  ∀ (s : State) (r : CycleRecord) (rest : List CycleRecord) (x : Exchange) (a : Attempt) (p : Pos)
    (l : List Pos) (octets : List Byte) (i : Identity) (held : Option Epoch),
    s.ring.state = .running → s.nodes.procedure = .verifying (p :: l) → s.attempts r rest x a →
    s.nothingListed r → x.user = .verification → x.message = .identify p →
    let old := s.node p
    (∀ (c : Instr) (g : Ring), s.failsAttempt r rest x a (s.ring.hearsAtLatency r) c g →
      x.failed + 1 ≤ x.limit → ∃ t, exec c s = .next t ∧
        s.goesOn t s.turnover.work false ∧ s.retiresAfter t rest ∧
        t = { s with
              ring := g, turnover := t.turnover
              control :=
                { s.control with exchange := some { x with failed := x.failed + 1 }, attempt := none }
              plans := { s.plans with retired := t.plans.retired }
              mover := { s.mover with retiredDelivery := t.mover.retiredDelivery } }) ∧
    (∀ (c : Instr) (g : Ring) (u : NodeEntry),
      (s.returnsGood r rest (s.ring.hearsAtLatency r) octets c g ∧ saysIdentity octets a p i held ∧
          (∃ j, old.identity = some j ∧ j.serial = i.serial) ∧
          u = (if held = some s.turnover.epoch then { old with state := .ready, held := held, failures := 0 }
            else { old with state := .stale, held := held }) ∨
        s.failsAttempt r rest x a (s.ring.hearsAtLatency r) c g ∧ x.limit < x.failed + 1 ∧
          u = { old with state := .stale }) →
      ∃ t, exec c s = .next t ∧
        t = { s with
              ports := t.ports, ring := g, turnover := t.turnover
              nodes :=
                { s.nodes with
                  entries := s.nodes.entries.set p u
                  procedure := if l = [] then .idle else .verifying l }
              control := { s.control with exchange := none, attempt := none }
              plans := { s.plans with retired := t.plans.retired }
              mover := { s.mover with retiredDelivery := t.mover.retiredDelivery } } ∧
        s.goesOn t s.turnover.work
          (decide (s.turnover.state = .waiting ∧ old.state = .stale ∧
            old.held = some (s.turnover.epoch + 1) ∧ (u.state ≠ .stale ∨ u.held ≠ old.held))) ∧
        s.retiresAfter t rest ∧
        ∀ q, t.port q =
          if u.state = old.state then s.port q
          else ((s.port q).post (.nodeState p u.state u.held u.failures .verification)).raise
            .ringChange) ∧
    ∀ (c : Instr) (g : Ring), s.returnsGood r rest (s.ring.hearsAtLatency r) octets c g →
      saysIdentity octets a p i held → (∀ j, old.identity = some j → j.serial ≠ i.serial) → l.Nodup →
      ∃ t, exec c s = .next t ∧
        s.leavesRunning t rest l { g with state := .halted } (.ringState .halted 0 .shape) ∧
        ∀ q, (t.port q).gaps = (s.port q).gaps

/-- In BROKEN a good return raises the heal run; at the heal count, with every hop count of the run equal to the
node count, the ring enters RUNNING with a verification round over its READY and STALE nodes, and otherwise
halts with SHAPE. A damaged return or a miss ends the run. In RUNNING a return with a good header check, kind
HUB and its cycle's count, good or damaged, with another hop count is a shape mismatch: the first is counted,
and the second in a row halts the ring with SHAPE. Every exchange and refresh then ends, a turnover in flight is
abandoned, the READY nodes that a verification round has not yet concluded become STALE, and each port is posted
NODE_STATE for these and then RING_STATE, and RING_DOWN is raised. The cycle carries no outstanding attempt, but
at the halt in RUNNING, where it may. -/
def Obligations.RingHealsOrHalts : Prop :=
  ∀ (s : State) (r : CycleRecord) (rest : List CycleRecord) (octets : List Byte) (cell : Nat),
    s.ring.sent = r :: rest → s.ring.hearsAtLatency r cell → s.nothingListed r →
    headerGood octets = true → isBeacon octets = false → countOf octets = r.count →
    let odd : Bool := s.ring.healOdd || decide (numAt octets 5 ≠ s.nodes.count.val)
    let healing : Ring := { s.ring with sent := rest, heal := s.ring.heal + 1, healOdd := odd }
    ∃ t, exec (.returnEvaluation cell ⟨octets, []⟩) s = .next t ∧ s.retiresAfter t rest ∧
      (let left (ring : Ring) (nodes : Nodes) (claim : Bool) : Prop :=
        t = { s with
              ports := t.ports, ring := ring, nodes := nodes, turnover := t.turnover
              plans := { s.plans with retired := t.plans.retired }
              mover := { s.mover with retiredDelivery := t.mover.retiredDelivery } } ∧
          s.goesOn t s.turnover.work claim
      let told (f : HostPort → HostPort) : Prop := ∀ q, t.port q = f (s.port q)
      (s.ring.state = .broken → payloadGood octets = true → s.decidesNothing r →
        (s.ring.heal + 1 < s.ring.healCount → left healing s.nodes false ∧ told fun h => h) ∧
        (s.ring.healCount ≤ s.ring.heal + 1 → odd = false →
          (let round := allPositions.filter fun p =>
            (s.node p).state == .ready || (s.node p).state == .stale
          left { healing with state := .running, misses := 0, shape := 0, breakPos := 0 }
            { s.nodes with procedure := if round = [] then .idle else .verifying round }
            (decide (s.turnover.state = .waiting))) ∧
          told fun h => (h.post (.ringState .running 0 .healed)).raise .ringChange) ∧
        (s.ring.healCount ≤ s.ring.heal + 1 → odd = true →
          left { healing with state := .halted } s.nodes false ∧
          told fun h => (h.post (.ringState .halted s.ring.breakPos .shape)).raise .ringDown)) ∧
      (s.ring.state = .running → numAt octets 5 ≠ s.nodes.count.val →
        (s.ring.shape = 0 → s.decidesNothing r →
          left { s.ring with sent := rest, misses := 0, breakPos := 0, shape := 1 } s.nodes false ∧
          told fun h => h) ∧
        (1 ≤ s.ring.shape →
          (∀ x, s.control.exchange = some x → x.user = .verification ∨ x.user = .refresh ∨
            x.user = .distribution ∧ s.turnover.inFlight = true) →
          s.nodes.procedure.left.Nodup →
          s.leavesRunning t rest s.nodes.procedure.left
            { s.ring with
              state := .halted, sent := s.sentWithoutAttempt rest, misses := 0, breakPos := 0
              shape := s.ring.shape + 1 }
            (.ringState .halted 0 .shape) ∧
          ∀ q, (t.port q).gaps = (s.port q).gaps))) ∧
      (s.ring.state = .broken → s.decidesNothing r →
        (∃ u, exec .returnWindowExpiry s = .next u ∧
          u.ring =
            { s.ring with
              sent := rest, heal := 0, healOdd := false
              breakPos := if s.ring.breakPos = 0 then 16 else s.ring.breakPos }) ∧
        ∀ damaged, s.ring.damages r damaged →
          ∃ u, exec (.returnEvaluation cell ⟨damaged, []⟩) s = .next u ∧
            u.ring = { s.ring with sent := rest, heal := 0, healOdd := false })

/-! ## Sessions, events -/

/-- The lapse of an ATTACHED port leaves the port LAPSED with its queues and events cleared, its tickets 0, the
post buffers of its streams EMPTY and a port entry queued, once; its lease setting stays. The expiry of the
lease timer does this at once when no item of the port is in processing. While one is, the timer stops and the
lapse is due, and LAPSE carries it out once the item is over, and nothing before, a transaction no more than
another command. A transaction completed in between takes its effect after the lapse, as in LAPSED (log 5):
sound request frames join the queue while it has room, and nothing else comes of it. At a port that is ATTACHED
no longer, only the lapse due is cleared besides. No request of any port is taken ahead of a lapse that is due:
a request's turn that comes first carries it out and takes no frame. -/
def Obligations.LapseEndsSession : Prop :=
  ∀ (s : State) (p : Port),
    let completed (room : Nat) : List (List Byte) :=
      ((s.port p).ended.filterMap fun x =>
        if x.kind = some .request ∧ 3 ≤ x.taken.length ∧ x.taken.length ≤ 32 ∧
            x.taken.head? = some (octet x.taken.length) then some x.taken
        else none).take room
    let lapsed : State :=
      { s with
        ports := s.ports.modify p fun h =>
          { h with
            state := .lapsed, leaseTimer := none, lapseDue := false, requests := completed 4
            responses := [], events := EventUnit.cleared, delivery := [], gaps := Table.fill 0
            txn := h.txn.map fun x => { x with removes := false }
            ended := [] }
        admission :=
          { s.admission with
            internal :=
              if .port p ∈ s.admission.internal then s.admission.internal
              else s.admission.internal ++ [.port p]
            batchTickets := s.admission.batchTickets.set p 0 }
        turnover := { s.turnover with outTickets := s.turnover.outTickets.set p 0 }
        mover :=
          { s.mover with
            posts := Table.tabulate fun id =>
              if ∃ d, (s.entry id).inForce = some d ∧ d.owner = p then .empty
              else s.mover.posts.get id } }
    ((s.port p).attached = true →
      ((∀ f, s.admission.processing ≠ some (.frame p f)) →
        ((s.port p).leaseTimer ≠ none → exec (.leaseExpiry p) s = .next lapsed) ∧
        ((s.port p).lapseDue = true → exec (.lapse p) s = .next lapsed)) ∧
      ∀ (straps : BitVec 2) (k : RequestKind), (s.port p).lapseDue = true →
        (∀ q, q ≠ p → (s.port q).lapseDue = false) → s.admission.processing = none →
        exec (requestCommand straps k) s = .next lapsed) ∧
    ((s.port p).attached = false → (s.port p).lapseDue = true →
      (∀ f, s.admission.processing ≠ some (.frame p f)) →
      exec (.lapse p) s = .next (s.modPort p fun h =>
        { h with
          lapseDue := false, ended := []
          requests := h.requests ++ completed (4 - h.requests.length) })) ∧
    (∀ f, s.admission.processing = some (.frame p f) →
      ((s.port p).leaseTimer ≠ none → exec (.leaseExpiry p) s = .next (s.modPort p fun h =>
        { h with leaseTimer := none, lapseDue := true })) ∧
      exec (.lapse p) s = .next s ∧
      ∀ (low : BitVec 4) (octets : List Byte), (s.port p).lapseDue = true → (s.port p).txn = none →
        (s.port p).heldOver = false → s.nresetLow = false →
        exec (.request p (txnBits 1 low octets) true) s = .next (s.modPort p fun h =>
          { h with
            hdo := spiBits (h.statusOctet s.running :: zeros octets.length)
            ended := h.ended ++
              [{ kind := some .request, bits := [], taken := octets, sending := [],
                 removes := false }] })) ∧
    ((s.port p).lapseDue = false → exec (.lapse p) s = .next s ∧
      ((s.port p).leaseTimer = none → exec (.leaseExpiry p) s = .next s))

/-- A raise makes a kind pending, or sets the repeat flag of a kind that is pending; the enable is not
looked at, other kinds stay, and a port that is not ATTACHED records nothing. The attention line is
asserted exactly while the port is ATTACHED and some pending enabled kind has a level above the mark. A
notice for an ATTACHED port takes a free entry at the tail and raises RESPONSE, and STREAM_CHANGE when it
tells of a stream; with no free entry it is dropped and raises OVERFLOW alone. -/
def Obligations.EventsAndNotices : Prop :=
  ∀ (h : HostPort) (k : EventKind) (n : Notice),
    (h.attached = false → h.raise k = h ∧ h.post n = h) ∧
    (h.attached = true →
      (∀ j, j ≠ k.rank → (h.raise k).events.kinds.get j = h.events.kinds.get j) ∧
      ((h.events.kinds.get k.rank).pending = false →
        (h.raise k).events.kinds.get k.rank = { h.events.kinds.get k.rank with pending := true }) ∧
      ((h.events.kinds.get k.rank).pending = true →
        (h.raise k).events.kinds.get k.rank = { h.events.kinds.get k.rank with repeated := true })) ∧
    (h.attention = true ↔ h.attached = true ∧ ∃ j : Fin 7,
      (h.events.kinds.get j).pending = true ∧ (h.events.kinds.get j).enabled = true ∧
      (h.events.stack = [] ∨
        ∃ rest, h.events.stack = .routine :: rest ∧ (h.events.kinds.get j).level = .urgent)) ∧
    (h.attached = true → 8 ≤ h.responses.length + (if h.reserved then 1 else 0) →
      h.post n = h.raise .overflow) ∧
    (h.attached = true → h.responses.length + (if h.reserved then 1 else 0) < 8 →
      h.post n =
        (match n with
        | .streamClosed _ _ _ | .sinkRemoved _ _ | .streamGained _ _ =>
          (({ h with responses := h.responses ++ [.notice n] } : HostPort).raise .response).raise
            .streamChange
        | .settled _ _ | .ringState _ _ _ | .nodeState _ _ _ _ _ =>
          ({ h with responses := h.responses ++ [.notice n] } : HostPort).raise .response))

/-! ## The ring protocol -/

/-- A TAPLOAD of at most three taps in range reaches the node it addresses as it was meant: part 1 becomes
the node's pending plan for the target epoch, and the node answers LOADACK. The part after those held is appended, a
part held already, the last one or an earlier one, is acknowledged again and leaves the plan, and a later part
discards it and draws a NAK, as does a part that would bring the plan above the tap capacity. -/
def Obligations.TaploadBuildsPendingPlan : Prop :=
  ∀ (n : NodeChip) (p : Pos) (e : Epoch) (parts : Nat) (taps : List Tap) (sequence : Byte),
    n.position = some p → taps.length ≤ 3 → 3 ≤ n.identity.capacity → 1 ≤ parts → parts ≤ 22 →
    (∀ t ∈ taps, t.offset ≤ 222 ∧ t.length ≤ 33) →
    n.control ((Message.tapload p e 1 parts taps).octets sequence) =
      ({ n with
          pending := some { epoch := e, parts := parts, received := 1, taps := taps }
          byLoad := true },
        replyField 0x21 p sequence [epochOctet e, 1]) ∧
    ∀ (q : PendingPlan) (part : Nat), n.pending = some q → q.epoch = e → q.parts = parts → 2 ≤ part →
      part ≤ parts →
      let got := n.control ((Message.tapload p e part parts taps).octets sequence)
      let whole := q.taps ++ taps
      (part ≤ q.received →
        got = ({ n with byLoad := true }, replyField 0x21 p sequence [epochOctet e, octet part])) ∧
      (part = q.received + 1 → whole.length ≤ n.identity.capacity →
        got =
          ({ n with pending := some { q with received := part, taps := whole }, byLoad := true },
            replyField 0x21 p sequence [epochOctet e, octet part])) ∧
      (q.received + 1 < part ∨ part = q.received + 1 ∧ n.identity.capacity < whole.length →
        got =
          ({ n with pending := none }, replyField 0x23 p sequence [epochOctet e, octet part]))

/-- A node writes into the payload area only of a hub cycle with a good header check whose epoch is the
epoch it holds once its pending plan has been tested: it forwards any other cycle's payload area and
payload check as they arrived, and a cycle with a bad header check whole. With its taps in range, the
payload check it forwards is good exactly when the one that arrived was, and so is the header check. Where
it holds the cycle's epoch and one WRITE tap for its page, it writes that tap's octets and no others. -/
def Obligations.NodeWritesOnlyItsEpoch : Prop :=
  ∀ (n : NodeChip) (c : List Byte), c.length = 256 →
    (headerGood c = false → (n.pass c).2 = c ∧ (n.pass c).1 = n.marked) ∧
    (headerGood c = true → isBeacon c = true →
      (n.pass c).2.drop 24 = c.drop 24 ∧ controlOf (n.pass c).2 = controlOf c ∧
        (n.pass c).1 = n.marked ∧ numAt (n.pass c).2 5 = min 255 (numAt c 5 + 1)) ∧
    (headerGood c = true → isBeacon c = false →
      numAt (n.pass c).2 5 = min 255 (numAt c 5 + 1) ∧ countOf (n.pass c).2 = countOf c ∧
      (n.held ≠ some (epochOf c) →
        (∀ q, n.pending = some q → q.received = q.parts → q.epoch ≠ epochOf c) →
        (n.pass c).2.drop 24 = c.drop 24) ∧
      (octetAt c 7 = 0x02 → (n.pass c).2.drop 24 = c.drop 24) ∧
      (octetAt c 7 = 0 →
        controlOf (n.pass c).2 = controlOf c ∧
        (n.held ≠ some (epochOf c) → n.pending = none → (n.pass c).1 = n.marked) ∧
        (∀ q, n.held ≠ some (epochOf c) → n.pending = some q → q.received = q.parts →
          q.epoch ≠ epochOf c →
          (n.pass c).1 = { n.marked with pending := if turnoverOf c then some q else none }) ∧
        (∀ t : Tap, n.held = some (epochOf c) → n.pending = none →
          (n.taps.filter fun u => u.page == cyclePage c && u.role == .write) = [t] →
          2 ≤ t.length → t.offset + t.length ≤ 224 →
          payloadOf (n.pass c).2 =
            (payloadOf c).take t.offset ++
              (n.outputs.get t.stream).slot (epochTag (epochOf c)) t.length ++
              (payloadOf c).drop (t.offset + t.length)))) ∧
    ((∀ t : Tap, (t ∈ n.taps ∨ ∃ q, n.pending = some q ∧ t ∈ q.taps) → t.role = .write →
        2 ≤ t.length ∧ t.offset + t.length ≤ 224) →
      payloadGood (n.pass c).2 = payloadGood c ∧ headerGood (n.pass c).2 = headerGood c)
end

