-- ==== Sys2Proof/Laws/Ports.lean ====
section
/-! SUPPORT. What each shared operation on one host port leaves as it was, field by field, and what a raise
and a posted notice can do. -/

namespace Sys2Proof.Machine

/-! ### raise -/

@[simp] theorem HostPort.raise_state (h : HostPort) (k : EventKind) :
    (h.raise k).state = h.state := by unfold HostPort.raise; split <;> rfl
@[simp] theorem HostPort.raise_cause (h : HostPort) (k : EventKind) :
    (h.raise k).cause = h.cause := by unfold HostPort.raise; split <;> rfl
@[simp] theorem HostPort.raise_leaseSetting (h : HostPort) (k : EventKind) :
    (h.raise k).leaseSetting = h.leaseSetting := by unfold HostPort.raise; split <;> rfl
@[simp] theorem HostPort.raise_leaseTimer (h : HostPort) (k : EventKind) :
    (h.raise k).leaseTimer = h.leaseTimer := by unfold HostPort.raise; split <;> rfl
@[simp] theorem HostPort.raise_lapseDue (h : HostPort) (k : EventKind) :
    (h.raise k).lapseDue = h.lapseDue := by unfold HostPort.raise; split <;> rfl
@[simp] theorem HostPort.raise_requests (h : HostPort) (k : EventKind) :
    (h.raise k).requests = h.requests := by unfold HostPort.raise; split <;> rfl
@[simp] theorem HostPort.raise_responses (h : HostPort) (k : EventKind) :
    (h.raise k).responses = h.responses := by unfold HostPort.raise; split <;> rfl
@[simp] theorem HostPort.raise_txn (h : HostPort) (k : EventKind) :
    (h.raise k).txn = h.txn := by unfold HostPort.raise; split <;> rfl
@[simp] theorem HostPort.raise_authority (h : HostPort) (k : EventKind) :
    (h.raise k).authority = h.authority := by unfold HostPort.raise; split <;> rfl
@[simp] theorem HostPort.raise_reserved (h : HostPort) (k : EventKind) :
    (h.raise k).reserved = h.reserved := by unfold HostPort.raise; split <;> rfl
@[simp] theorem HostPort.raise_delivery (h : HostPort) (k : EventKind) :
    (h.raise k).delivery = h.delivery := by unfold HostPort.raise; split <;> rfl
@[simp] theorem HostPort.raise_gaps (h : HostPort) (k : EventKind) :
    (h.raise k).gaps = h.gaps := by unfold HostPort.raise; split <;> rfl
@[simp] theorem HostPort.raise_heldOver (h : HostPort) (k : EventKind) :
    (h.raise k).heldOver = h.heldOver := by unfold HostPort.raise; split <;> rfl
@[simp] theorem HostPort.raise_hdo (h : HostPort) (k : EventKind) :
    (h.raise k).hdo = h.hdo := by unfold HostPort.raise; split <;> rfl
@[simp] theorem HostPort.raise_attached (h : HostPort) (k : EventKind) :
    (h.raise k).attached = h.attached := by simp [HostPort.attached]

/-! ### raiseIf -/

@[simp] theorem HostPort.raiseIf_state (h : HostPort) (c : Bool) (k : EventKind) :
    (h.raiseIf c k).state = h.state := by unfold HostPort.raiseIf; split <;> simp
@[simp] theorem HostPort.raiseIf_cause (h : HostPort) (c : Bool) (k : EventKind) :
    (h.raiseIf c k).cause = h.cause := by unfold HostPort.raiseIf; split <;> simp
@[simp] theorem HostPort.raiseIf_leaseSetting (h : HostPort) (c : Bool) (k : EventKind) :
    (h.raiseIf c k).leaseSetting = h.leaseSetting := by unfold HostPort.raiseIf; split <;> simp
@[simp] theorem HostPort.raiseIf_leaseTimer (h : HostPort) (c : Bool) (k : EventKind) :
    (h.raiseIf c k).leaseTimer = h.leaseTimer := by unfold HostPort.raiseIf; split <;> simp
@[simp] theorem HostPort.raiseIf_lapseDue (h : HostPort) (c : Bool) (k : EventKind) :
    (h.raiseIf c k).lapseDue = h.lapseDue := by unfold HostPort.raiseIf; split <;> simp
@[simp] theorem HostPort.raiseIf_requests (h : HostPort) (c : Bool) (k : EventKind) :
    (h.raiseIf c k).requests = h.requests := by unfold HostPort.raiseIf; split <;> simp
@[simp] theorem HostPort.raiseIf_responses (h : HostPort) (c : Bool) (k : EventKind) :
    (h.raiseIf c k).responses = h.responses := by unfold HostPort.raiseIf; split <;> simp
@[simp] theorem HostPort.raiseIf_txn (h : HostPort) (c : Bool) (k : EventKind) :
    (h.raiseIf c k).txn = h.txn := by unfold HostPort.raiseIf; split <;> simp
@[simp] theorem HostPort.raiseIf_authority (h : HostPort) (c : Bool) (k : EventKind) :
    (h.raiseIf c k).authority = h.authority := by unfold HostPort.raiseIf; split <;> simp
@[simp] theorem HostPort.raiseIf_reserved (h : HostPort) (c : Bool) (k : EventKind) :
    (h.raiseIf c k).reserved = h.reserved := by unfold HostPort.raiseIf; split <;> simp
@[simp] theorem HostPort.raiseIf_delivery (h : HostPort) (c : Bool) (k : EventKind) :
    (h.raiseIf c k).delivery = h.delivery := by unfold HostPort.raiseIf; split <;> simp
@[simp] theorem HostPort.raiseIf_gaps (h : HostPort) (c : Bool) (k : EventKind) :
    (h.raiseIf c k).gaps = h.gaps := by unfold HostPort.raiseIf; split <;> simp
@[simp] theorem HostPort.raiseIf_heldOver (h : HostPort) (c : Bool) (k : EventKind) :
    (h.raiseIf c k).heldOver = h.heldOver := by unfold HostPort.raiseIf; split <;> simp
@[simp] theorem HostPort.raiseIf_hdo (h : HostPort) (c : Bool) (k : EventKind) :
    (h.raiseIf c k).hdo = h.hdo := by unfold HostPort.raiseIf; split <;> simp
@[simp] theorem HostPort.raiseIf_attached (h : HostPort) (c : Bool) (k : EventKind) :
    (h.raiseIf c k).attached = h.attached := by simp [HostPort.attached]

/-! ### append -/

@[simp] theorem HostPort.append_state (h : HostPort) (e : ResponseEntry) :
    (h.append e).state = h.state := by simp [HostPort.append]
@[simp] theorem HostPort.append_cause (h : HostPort) (e : ResponseEntry) :
    (h.append e).cause = h.cause := by simp [HostPort.append]
@[simp] theorem HostPort.append_leaseSetting (h : HostPort) (e : ResponseEntry) :
    (h.append e).leaseSetting = h.leaseSetting := by simp [HostPort.append]
@[simp] theorem HostPort.append_leaseTimer (h : HostPort) (e : ResponseEntry) :
    (h.append e).leaseTimer = h.leaseTimer := by simp [HostPort.append]
@[simp] theorem HostPort.append_lapseDue (h : HostPort) (e : ResponseEntry) :
    (h.append e).lapseDue = h.lapseDue := by simp [HostPort.append]
@[simp] theorem HostPort.append_requests (h : HostPort) (e : ResponseEntry) :
    (h.append e).requests = h.requests := by simp [HostPort.append]
@[simp] theorem HostPort.append_txn (h : HostPort) (e : ResponseEntry) :
    (h.append e).txn = h.txn := by simp [HostPort.append]
@[simp] theorem HostPort.append_authority (h : HostPort) (e : ResponseEntry) :
    (h.append e).authority = h.authority := by simp [HostPort.append]
@[simp] theorem HostPort.append_reserved (h : HostPort) (e : ResponseEntry) :
    (h.append e).reserved = h.reserved := by simp [HostPort.append]
@[simp] theorem HostPort.append_delivery (h : HostPort) (e : ResponseEntry) :
    (h.append e).delivery = h.delivery := by simp [HostPort.append]
@[simp] theorem HostPort.append_gaps (h : HostPort) (e : ResponseEntry) :
    (h.append e).gaps = h.gaps := by simp [HostPort.append]
@[simp] theorem HostPort.append_heldOver (h : HostPort) (e : ResponseEntry) :
    (h.append e).heldOver = h.heldOver := by simp [HostPort.append]
@[simp] theorem HostPort.append_hdo (h : HostPort) (e : ResponseEntry) :
    (h.append e).hdo = h.hdo := by simp [HostPort.append]
@[simp] theorem HostPort.append_attached (h : HostPort) (e : ResponseEntry) :
    (h.append e).attached = h.attached := by simp [HostPort.attached]

/-! ### post -/

@[simp] theorem HostPort.post_state (h : HostPort) (n : Notice) :
    (h.post n).state = h.state := by
  unfold HostPort.post; repeat' split
  all_goals simp
@[simp] theorem HostPort.post_cause (h : HostPort) (n : Notice) :
    (h.post n).cause = h.cause := by
  unfold HostPort.post; repeat' split
  all_goals simp
@[simp] theorem HostPort.post_leaseSetting (h : HostPort) (n : Notice) :
    (h.post n).leaseSetting = h.leaseSetting := by
  unfold HostPort.post; repeat' split
  all_goals simp
@[simp] theorem HostPort.post_leaseTimer (h : HostPort) (n : Notice) :
    (h.post n).leaseTimer = h.leaseTimer := by
  unfold HostPort.post; repeat' split
  all_goals simp
@[simp] theorem HostPort.post_lapseDue (h : HostPort) (n : Notice) :
    (h.post n).lapseDue = h.lapseDue := by
  unfold HostPort.post; repeat' split
  all_goals simp
@[simp] theorem HostPort.post_requests (h : HostPort) (n : Notice) :
    (h.post n).requests = h.requests := by
  unfold HostPort.post; repeat' split
  all_goals simp
@[simp] theorem HostPort.post_txn (h : HostPort) (n : Notice) :
    (h.post n).txn = h.txn := by
  unfold HostPort.post; repeat' split
  all_goals simp
@[simp] theorem HostPort.post_authority (h : HostPort) (n : Notice) :
    (h.post n).authority = h.authority := by
  unfold HostPort.post; repeat' split
  all_goals simp
@[simp] theorem HostPort.post_reserved (h : HostPort) (n : Notice) :
    (h.post n).reserved = h.reserved := by
  unfold HostPort.post; repeat' split
  all_goals simp
@[simp] theorem HostPort.post_delivery (h : HostPort) (n : Notice) :
    (h.post n).delivery = h.delivery := by
  unfold HostPort.post; repeat' split
  all_goals simp
@[simp] theorem HostPort.post_gaps (h : HostPort) (n : Notice) :
    (h.post n).gaps = h.gaps := by
  unfold HostPort.post; repeat' split
  all_goals simp
@[simp] theorem HostPort.post_heldOver (h : HostPort) (n : Notice) :
    (h.post n).heldOver = h.heldOver := by
  unfold HostPort.post; repeat' split
  all_goals simp
@[simp] theorem HostPort.post_hdo (h : HostPort) (n : Notice) :
    (h.post n).hdo = h.hdo := by
  unfold HostPort.post; repeat' split
  all_goals simp
@[simp] theorem HostPort.post_attached (h : HostPort) (n : Notice) :
    (h.post n).attached = h.attached := by simp [HostPort.attached]

/-! ### postNode -/

@[simp] theorem HostPort.postNode_state (h : HostPort) (n : Notice) :
    (h.postNode n).state = h.state := by simp [HostPort.postNode]
@[simp] theorem HostPort.postNode_cause (h : HostPort) (n : Notice) :
    (h.postNode n).cause = h.cause := by simp [HostPort.postNode]
@[simp] theorem HostPort.postNode_leaseSetting (h : HostPort) (n : Notice) :
    (h.postNode n).leaseSetting = h.leaseSetting := by simp [HostPort.postNode]
@[simp] theorem HostPort.postNode_leaseTimer (h : HostPort) (n : Notice) :
    (h.postNode n).leaseTimer = h.leaseTimer := by simp [HostPort.postNode]
@[simp] theorem HostPort.postNode_lapseDue (h : HostPort) (n : Notice) :
    (h.postNode n).lapseDue = h.lapseDue := by simp [HostPort.postNode]
@[simp] theorem HostPort.postNode_requests (h : HostPort) (n : Notice) :
    (h.postNode n).requests = h.requests := by simp [HostPort.postNode]
@[simp] theorem HostPort.postNode_txn (h : HostPort) (n : Notice) :
    (h.postNode n).txn = h.txn := by simp [HostPort.postNode]
@[simp] theorem HostPort.postNode_authority (h : HostPort) (n : Notice) :
    (h.postNode n).authority = h.authority := by simp [HostPort.postNode]
@[simp] theorem HostPort.postNode_reserved (h : HostPort) (n : Notice) :
    (h.postNode n).reserved = h.reserved := by simp [HostPort.postNode]
@[simp] theorem HostPort.postNode_delivery (h : HostPort) (n : Notice) :
    (h.postNode n).delivery = h.delivery := by simp [HostPort.postNode]
@[simp] theorem HostPort.postNode_gaps (h : HostPort) (n : Notice) :
    (h.postNode n).gaps = h.gaps := by simp [HostPort.postNode]
@[simp] theorem HostPort.postNode_heldOver (h : HostPort) (n : Notice) :
    (h.postNode n).heldOver = h.heldOver := by simp [HostPort.postNode]
@[simp] theorem HostPort.postNode_hdo (h : HostPort) (n : Notice) :
    (h.postNode n).hdo = h.hdo := by simp [HostPort.postNode]
@[simp] theorem HostPort.postNode_attached (h : HostPort) (n : Notice) :
    (h.postNode n).attached = h.attached := by simp [HostPort.attached]

/-! ### placeAnswer -/

@[simp] theorem HostPort.placeAnswer_state (h : HostPort) (tag kind : Byte) (r : Reply) :
    (h.placeAnswer tag kind r).state = h.state := by simp [HostPort.placeAnswer]
@[simp] theorem HostPort.placeAnswer_cause (h : HostPort) (tag kind : Byte) (r : Reply) :
    (h.placeAnswer tag kind r).cause = h.cause := by simp [HostPort.placeAnswer]
@[simp] theorem HostPort.placeAnswer_leaseSetting (h : HostPort) (tag kind : Byte) (r : Reply) :
    (h.placeAnswer tag kind r).leaseSetting = h.leaseSetting := by simp [HostPort.placeAnswer]
@[simp] theorem HostPort.placeAnswer_leaseTimer (h : HostPort) (tag kind : Byte) (r : Reply) :
    (h.placeAnswer tag kind r).leaseTimer = h.leaseTimer := by simp [HostPort.placeAnswer]
@[simp] theorem HostPort.placeAnswer_lapseDue (h : HostPort) (tag kind : Byte) (r : Reply) :
    (h.placeAnswer tag kind r).lapseDue = h.lapseDue := by simp [HostPort.placeAnswer]
@[simp] theorem HostPort.placeAnswer_requests (h : HostPort) (tag kind : Byte) (r : Reply) :
    (h.placeAnswer tag kind r).requests = h.requests := by simp [HostPort.placeAnswer]
@[simp] theorem HostPort.placeAnswer_txn (h : HostPort) (tag kind : Byte) (r : Reply) :
    (h.placeAnswer tag kind r).txn = h.txn := by simp [HostPort.placeAnswer]
@[simp] theorem HostPort.placeAnswer_authority (h : HostPort) (tag kind : Byte) (r : Reply) :
    (h.placeAnswer tag kind r).authority = h.authority := by simp [HostPort.placeAnswer]
@[simp] theorem HostPort.placeAnswer_delivery (h : HostPort) (tag kind : Byte) (r : Reply) :
    (h.placeAnswer tag kind r).delivery = h.delivery := by simp [HostPort.placeAnswer]
@[simp] theorem HostPort.placeAnswer_gaps (h : HostPort) (tag kind : Byte) (r : Reply) :
    (h.placeAnswer tag kind r).gaps = h.gaps := by simp [HostPort.placeAnswer]
@[simp] theorem HostPort.placeAnswer_heldOver (h : HostPort) (tag kind : Byte) (r : Reply) :
    (h.placeAnswer tag kind r).heldOver = h.heldOver := by simp [HostPort.placeAnswer]
@[simp] theorem HostPort.placeAnswer_hdo (h : HostPort) (tag kind : Byte) (r : Reply) :
    (h.placeAnswer tag kind r).hdo = h.hdo := by simp [HostPort.placeAnswer]
@[simp] theorem HostPort.placeAnswer_attached (h : HostPort) (tag kind : Byte) (r : Reply) :
    (h.placeAnswer tag kind r).attached = h.attached := by simp [HostPort.attached]

/-! ### ringChanged -/

@[simp] theorem HostPort.ringChanged_state (h : HostPort) (st : RingState) (b : Fin 17) (r : RingReason) :
    (h.ringChanged st b r).state = h.state := by simp [HostPort.ringChanged]
@[simp] theorem HostPort.ringChanged_cause (h : HostPort) (st : RingState) (b : Fin 17) (r : RingReason) :
    (h.ringChanged st b r).cause = h.cause := by simp [HostPort.ringChanged]
@[simp] theorem HostPort.ringChanged_leaseSetting (h : HostPort) (st : RingState) (b : Fin 17) (r : RingReason) :
    (h.ringChanged st b r).leaseSetting = h.leaseSetting := by simp [HostPort.ringChanged]
@[simp] theorem HostPort.ringChanged_leaseTimer (h : HostPort) (st : RingState) (b : Fin 17) (r : RingReason) :
    (h.ringChanged st b r).leaseTimer = h.leaseTimer := by simp [HostPort.ringChanged]
@[simp] theorem HostPort.ringChanged_lapseDue (h : HostPort) (st : RingState) (b : Fin 17) (r : RingReason) :
    (h.ringChanged st b r).lapseDue = h.lapseDue := by simp [HostPort.ringChanged]
@[simp] theorem HostPort.ringChanged_requests (h : HostPort) (st : RingState) (b : Fin 17) (r : RingReason) :
    (h.ringChanged st b r).requests = h.requests := by simp [HostPort.ringChanged]
@[simp] theorem HostPort.ringChanged_txn (h : HostPort) (st : RingState) (b : Fin 17) (r : RingReason) :
    (h.ringChanged st b r).txn = h.txn := by simp [HostPort.ringChanged]
@[simp] theorem HostPort.ringChanged_authority (h : HostPort) (st : RingState) (b : Fin 17) (r : RingReason) :
    (h.ringChanged st b r).authority = h.authority := by simp [HostPort.ringChanged]
@[simp] theorem HostPort.ringChanged_reserved (h : HostPort) (st : RingState) (b : Fin 17) (r : RingReason) :
    (h.ringChanged st b r).reserved = h.reserved := by simp [HostPort.ringChanged]
@[simp] theorem HostPort.ringChanged_delivery (h : HostPort) (st : RingState) (b : Fin 17) (r : RingReason) :
    (h.ringChanged st b r).delivery = h.delivery := by simp [HostPort.ringChanged]
@[simp] theorem HostPort.ringChanged_gaps (h : HostPort) (st : RingState) (b : Fin 17) (r : RingReason) :
    (h.ringChanged st b r).gaps = h.gaps := by simp [HostPort.ringChanged]
@[simp] theorem HostPort.ringChanged_heldOver (h : HostPort) (st : RingState) (b : Fin 17) (r : RingReason) :
    (h.ringChanged st b r).heldOver = h.heldOver := by simp [HostPort.ringChanged]
@[simp] theorem HostPort.ringChanged_hdo (h : HostPort) (st : RingState) (b : Fin 17) (r : RingReason) :
    (h.ringChanged st b r).hdo = h.hdo := by simp [HostPort.ringChanged]
@[simp] theorem HostPort.ringChanged_attached (h : HostPort) (st : RingState) (b : Fin 17) (r : RingReason) :
    (h.ringChanged st b r).attached = h.attached := by simp [HostPort.attached]

/-! ### loadLease -/

@[simp] theorem HostPort.loadLease_state (h : HostPort) : h.loadLease.state = h.state := rfl
@[simp] theorem HostPort.loadLease_cause (h : HostPort) : h.loadLease.cause = h.cause := rfl
@[simp] theorem HostPort.loadLease_leaseSetting (h : HostPort) :
    h.loadLease.leaseSetting = h.leaseSetting := rfl
@[simp] theorem HostPort.loadLease_lapseDue (h : HostPort) : h.loadLease.lapseDue = h.lapseDue := rfl
@[simp] theorem HostPort.loadLease_requests (h : HostPort) : h.loadLease.requests = h.requests := rfl
@[simp] theorem HostPort.loadLease_responses (h : HostPort) : h.loadLease.responses = h.responses := rfl
@[simp] theorem HostPort.loadLease_txn (h : HostPort) : h.loadLease.txn = h.txn := rfl
@[simp] theorem HostPort.loadLease_authority (h : HostPort) : h.loadLease.authority = h.authority := rfl
@[simp] theorem HostPort.loadLease_reserved (h : HostPort) : h.loadLease.reserved = h.reserved := rfl
@[simp] theorem HostPort.loadLease_events (h : HostPort) : h.loadLease.events = h.events := rfl
@[simp] theorem HostPort.loadLease_delivery (h : HostPort) : h.loadLease.delivery = h.delivery := rfl
@[simp] theorem HostPort.loadLease_gaps (h : HostPort) : h.loadLease.gaps = h.gaps := rfl
@[simp] theorem HostPort.loadLease_heldOver (h : HostPort) : h.loadLease.heldOver = h.heldOver := rfl
@[simp] theorem HostPort.loadLease_hdo (h : HostPort) : h.loadLease.hdo = h.hdo := rfl
@[simp] theorem HostPort.loadLease_attached (h : HostPort) :
    h.loadLease.attached = h.attached := by simp [HostPort.attached]

/-! ### touchLease -/

@[simp] theorem HostPort.touchLease_state (h : HostPort) :
    h.touchLease.state = h.state := by unfold HostPort.touchLease; split <;> rfl
@[simp] theorem HostPort.touchLease_cause (h : HostPort) :
    h.touchLease.cause = h.cause := by unfold HostPort.touchLease; split <;> rfl
@[simp] theorem HostPort.touchLease_leaseSetting (h : HostPort) :
    h.touchLease.leaseSetting = h.leaseSetting := by unfold HostPort.touchLease; split <;> rfl
@[simp] theorem HostPort.touchLease_lapseDue (h : HostPort) :
    h.touchLease.lapseDue = h.lapseDue := by unfold HostPort.touchLease; split <;> rfl
@[simp] theorem HostPort.touchLease_requests (h : HostPort) :
    h.touchLease.requests = h.requests := by unfold HostPort.touchLease; split <;> rfl
@[simp] theorem HostPort.touchLease_responses (h : HostPort) :
    h.touchLease.responses = h.responses := by unfold HostPort.touchLease; split <;> rfl
@[simp] theorem HostPort.touchLease_txn (h : HostPort) :
    h.touchLease.txn = h.txn := by unfold HostPort.touchLease; split <;> rfl
@[simp] theorem HostPort.touchLease_authority (h : HostPort) :
    h.touchLease.authority = h.authority := by unfold HostPort.touchLease; split <;> rfl
@[simp] theorem HostPort.touchLease_reserved (h : HostPort) :
    h.touchLease.reserved = h.reserved := by unfold HostPort.touchLease; split <;> rfl
@[simp] theorem HostPort.touchLease_events (h : HostPort) :
    h.touchLease.events = h.events := by unfold HostPort.touchLease; split <;> rfl
@[simp] theorem HostPort.touchLease_delivery (h : HostPort) :
    h.touchLease.delivery = h.delivery := by unfold HostPort.touchLease; split <;> rfl
@[simp] theorem HostPort.touchLease_gaps (h : HostPort) :
    h.touchLease.gaps = h.gaps := by unfold HostPort.touchLease; split <;> rfl
@[simp] theorem HostPort.touchLease_heldOver (h : HostPort) :
    h.touchLease.heldOver = h.heldOver := by unfold HostPort.touchLease; split <;> rfl
@[simp] theorem HostPort.touchLease_hdo (h : HostPort) :
    h.touchLease.hdo = h.hdo := by unfold HostPort.touchLease; split <;> rfl
@[simp] theorem HostPort.touchLease_attached (h : HostPort) :
    h.touchLease.attached = h.attached := by simp [HostPort.attached]

/-! ### countGap -/

@[simp] theorem HostPort.countGap_state (h : HostPort) (id : StreamId) :
    (h.countGap id).state = h.state := rfl
@[simp] theorem HostPort.countGap_cause (h : HostPort) (id : StreamId) :
    (h.countGap id).cause = h.cause := rfl
@[simp] theorem HostPort.countGap_leaseSetting (h : HostPort) (id : StreamId) :
    (h.countGap id).leaseSetting = h.leaseSetting := rfl
@[simp] theorem HostPort.countGap_leaseTimer (h : HostPort) (id : StreamId) :
    (h.countGap id).leaseTimer = h.leaseTimer := rfl
@[simp] theorem HostPort.countGap_lapseDue (h : HostPort) (id : StreamId) :
    (h.countGap id).lapseDue = h.lapseDue := rfl
@[simp] theorem HostPort.countGap_requests (h : HostPort) (id : StreamId) :
    (h.countGap id).requests = h.requests := rfl
@[simp] theorem HostPort.countGap_responses (h : HostPort) (id : StreamId) :
    (h.countGap id).responses = h.responses := rfl
@[simp] theorem HostPort.countGap_txn (h : HostPort) (id : StreamId) : (h.countGap id).txn = h.txn := rfl
@[simp] theorem HostPort.countGap_authority (h : HostPort) (id : StreamId) :
    (h.countGap id).authority = h.authority := rfl
@[simp] theorem HostPort.countGap_reserved (h : HostPort) (id : StreamId) :
    (h.countGap id).reserved = h.reserved := rfl
@[simp] theorem HostPort.countGap_events (h : HostPort) (id : StreamId) :
    (h.countGap id).events = h.events := rfl
@[simp] theorem HostPort.countGap_delivery (h : HostPort) (id : StreamId) :
    (h.countGap id).delivery = h.delivery := rfl
@[simp] theorem HostPort.countGap_heldOver (h : HostPort) (id : StreamId) :
    (h.countGap id).heldOver = h.heldOver := rfl
@[simp] theorem HostPort.countGap_hdo (h : HostPort) (id : StreamId) : (h.countGap id).hdo = h.hdo := rfl
@[simp] theorem HostPort.countGap_attached (h : HostPort) (id : StreamId) :
    (h.countGap id).attached = h.attached := by simp [HostPort.attached]

/-! ### deliver -/

@[simp] theorem HostPort.deliver_state (h : HostPort) (x : Record) :
    (h.deliver x).state = h.state := by unfold HostPort.deliver; split <;> simp
@[simp] theorem HostPort.deliver_cause (h : HostPort) (x : Record) :
    (h.deliver x).cause = h.cause := by unfold HostPort.deliver; split <;> simp
@[simp] theorem HostPort.deliver_leaseSetting (h : HostPort) (x : Record) :
    (h.deliver x).leaseSetting = h.leaseSetting := by unfold HostPort.deliver; split <;> simp
@[simp] theorem HostPort.deliver_leaseTimer (h : HostPort) (x : Record) :
    (h.deliver x).leaseTimer = h.leaseTimer := by unfold HostPort.deliver; split <;> simp
@[simp] theorem HostPort.deliver_lapseDue (h : HostPort) (x : Record) :
    (h.deliver x).lapseDue = h.lapseDue := by unfold HostPort.deliver; split <;> simp
@[simp] theorem HostPort.deliver_requests (h : HostPort) (x : Record) :
    (h.deliver x).requests = h.requests := by unfold HostPort.deliver; split <;> simp
@[simp] theorem HostPort.deliver_responses (h : HostPort) (x : Record) :
    (h.deliver x).responses = h.responses := by unfold HostPort.deliver; split <;> simp
@[simp] theorem HostPort.deliver_txn (h : HostPort) (x : Record) :
    (h.deliver x).txn = h.txn := by unfold HostPort.deliver; split <;> simp
@[simp] theorem HostPort.deliver_authority (h : HostPort) (x : Record) :
    (h.deliver x).authority = h.authority := by unfold HostPort.deliver; split <;> simp
@[simp] theorem HostPort.deliver_reserved (h : HostPort) (x : Record) :
    (h.deliver x).reserved = h.reserved := by unfold HostPort.deliver; split <;> simp
@[simp] theorem HostPort.deliver_heldOver (h : HostPort) (x : Record) :
    (h.deliver x).heldOver = h.heldOver := by unfold HostPort.deliver; split <;> simp
@[simp] theorem HostPort.deliver_hdo (h : HostPort) (x : Record) :
    (h.deliver x).hdo = h.hdo := by unfold HostPort.deliver; split <;> simp
@[simp] theorem HostPort.deliver_attached (h : HostPort) (x : Record) :
    (h.deliver x).attached = h.attached := by simp [HostPort.attached]

/-! ### receive -/

@[simp] theorem HostPort.receive_state (h : HostPort) (r : CycleRecord) (c : ReturnClass) (pl : Placement) :
    (h.receive r c pl).state = h.state := by
  unfold HostPort.receive; repeat' split
  all_goals simp
@[simp] theorem HostPort.receive_cause (h : HostPort) (r : CycleRecord) (c : ReturnClass) (pl : Placement) :
    (h.receive r c pl).cause = h.cause := by
  unfold HostPort.receive; repeat' split
  all_goals simp
@[simp] theorem HostPort.receive_leaseSetting (h : HostPort) (r : CycleRecord) (c : ReturnClass) (pl : Placement) :
    (h.receive r c pl).leaseSetting = h.leaseSetting := by
  unfold HostPort.receive; repeat' split
  all_goals simp
@[simp] theorem HostPort.receive_leaseTimer (h : HostPort) (r : CycleRecord) (c : ReturnClass) (pl : Placement) :
    (h.receive r c pl).leaseTimer = h.leaseTimer := by
  unfold HostPort.receive; repeat' split
  all_goals simp
@[simp] theorem HostPort.receive_lapseDue (h : HostPort) (r : CycleRecord) (c : ReturnClass) (pl : Placement) :
    (h.receive r c pl).lapseDue = h.lapseDue := by
  unfold HostPort.receive; repeat' split
  all_goals simp
@[simp] theorem HostPort.receive_requests (h : HostPort) (r : CycleRecord) (c : ReturnClass) (pl : Placement) :
    (h.receive r c pl).requests = h.requests := by
  unfold HostPort.receive; repeat' split
  all_goals simp
@[simp] theorem HostPort.receive_responses (h : HostPort) (r : CycleRecord) (c : ReturnClass) (pl : Placement) :
    (h.receive r c pl).responses = h.responses := by
  unfold HostPort.receive; repeat' split
  all_goals simp
@[simp] theorem HostPort.receive_txn (h : HostPort) (r : CycleRecord) (c : ReturnClass) (pl : Placement) :
    (h.receive r c pl).txn = h.txn := by
  unfold HostPort.receive; repeat' split
  all_goals simp
@[simp] theorem HostPort.receive_authority (h : HostPort) (r : CycleRecord) (c : ReturnClass) (pl : Placement) :
    (h.receive r c pl).authority = h.authority := by
  unfold HostPort.receive; repeat' split
  all_goals simp
@[simp] theorem HostPort.receive_reserved (h : HostPort) (r : CycleRecord) (c : ReturnClass) (pl : Placement) :
    (h.receive r c pl).reserved = h.reserved := by
  unfold HostPort.receive; repeat' split
  all_goals simp
@[simp] theorem HostPort.receive_heldOver (h : HostPort) (r : CycleRecord) (c : ReturnClass) (pl : Placement) :
    (h.receive r c pl).heldOver = h.heldOver := by
  unfold HostPort.receive; repeat' split
  all_goals simp
@[simp] theorem HostPort.receive_hdo (h : HostPort) (r : CycleRecord) (c : ReturnClass) (pl : Placement) :
    (h.receive r c pl).hdo = h.hdo := by
  unfold HostPort.receive; repeat' split
  all_goals simp
@[simp] theorem HostPort.receive_attached (h : HostPort) (r : CycleRecord) (c : ReturnClass) (pl : Placement) :
    (h.receive r c pl).attached = h.attached := by simp [HostPort.attached]

/-! ### switchGaps -/

@[simp] theorem HostPort.switchGaps_state (h : HostPort) (p : Port) (v w : ViewTable) :
    (h.switchGaps p v w).state = h.state := rfl
@[simp] theorem HostPort.switchGaps_cause (h : HostPort) (p : Port) (v w : ViewTable) :
    (h.switchGaps p v w).cause = h.cause := rfl
@[simp] theorem HostPort.switchGaps_leaseSetting (h : HostPort) (p : Port) (v w : ViewTable) :
    (h.switchGaps p v w).leaseSetting = h.leaseSetting := rfl
@[simp] theorem HostPort.switchGaps_leaseTimer (h : HostPort) (p : Port) (v w : ViewTable) :
    (h.switchGaps p v w).leaseTimer = h.leaseTimer := rfl
@[simp] theorem HostPort.switchGaps_lapseDue (h : HostPort) (p : Port) (v w : ViewTable) :
    (h.switchGaps p v w).lapseDue = h.lapseDue := rfl
@[simp] theorem HostPort.switchGaps_requests (h : HostPort) (p : Port) (v w : ViewTable) :
    (h.switchGaps p v w).requests = h.requests := rfl
@[simp] theorem HostPort.switchGaps_responses (h : HostPort) (p : Port) (v w : ViewTable) :
    (h.switchGaps p v w).responses = h.responses := rfl
@[simp] theorem HostPort.switchGaps_txn (h : HostPort) (p : Port) (v w : ViewTable) :
    (h.switchGaps p v w).txn = h.txn := rfl
@[simp] theorem HostPort.switchGaps_authority (h : HostPort) (p : Port) (v w : ViewTable) :
    (h.switchGaps p v w).authority = h.authority := rfl
@[simp] theorem HostPort.switchGaps_reserved (h : HostPort) (p : Port) (v w : ViewTable) :
    (h.switchGaps p v w).reserved = h.reserved := rfl
@[simp] theorem HostPort.switchGaps_events (h : HostPort) (p : Port) (v w : ViewTable) :
    (h.switchGaps p v w).events = h.events := rfl
@[simp] theorem HostPort.switchGaps_delivery (h : HostPort) (p : Port) (v w : ViewTable) :
    (h.switchGaps p v w).delivery = h.delivery := rfl
@[simp] theorem HostPort.switchGaps_heldOver (h : HostPort) (p : Port) (v w : ViewTable) :
    (h.switchGaps p v w).heldOver = h.heldOver := rfl
@[simp] theorem HostPort.switchGaps_hdo (h : HostPort) (p : Port) (v w : ViewTable) :
    (h.switchGaps p v w).hdo = h.hdo := rfl
@[simp] theorem HostPort.switchGaps_attached (h : HostPort) (p : Port) (v w : ViewTable) :
    (h.switchGaps p v w).attached = h.attached := by simp [HostPort.attached]

/-! ### takeFrame -/

@[simp] theorem HostPort.takeFrame_state (h : HostPort) (l : List Byte) :
    (h.takeFrame l).state = h.state := by unfold HostPort.takeFrame; split <;> simp
@[simp] theorem HostPort.takeFrame_cause (h : HostPort) (l : List Byte) :
    (h.takeFrame l).cause = h.cause := by unfold HostPort.takeFrame; split <;> simp
@[simp] theorem HostPort.takeFrame_leaseSetting (h : HostPort) (l : List Byte) :
    (h.takeFrame l).leaseSetting = h.leaseSetting := by unfold HostPort.takeFrame; split <;> simp
@[simp] theorem HostPort.takeFrame_leaseTimer (h : HostPort) (l : List Byte) :
    (h.takeFrame l).leaseTimer = h.leaseTimer := by unfold HostPort.takeFrame; split <;> simp
@[simp] theorem HostPort.takeFrame_lapseDue (h : HostPort) (l : List Byte) :
    (h.takeFrame l).lapseDue = h.lapseDue := by unfold HostPort.takeFrame; split <;> simp
@[simp] theorem HostPort.takeFrame_responses (h : HostPort) (l : List Byte) :
    (h.takeFrame l).responses = h.responses := by unfold HostPort.takeFrame; split <;> simp
@[simp] theorem HostPort.takeFrame_txn (h : HostPort) (l : List Byte) :
    (h.takeFrame l).txn = h.txn := by unfold HostPort.takeFrame; split <;> simp
@[simp] theorem HostPort.takeFrame_authority (h : HostPort) (l : List Byte) :
    (h.takeFrame l).authority = h.authority := by unfold HostPort.takeFrame; split <;> simp
@[simp] theorem HostPort.takeFrame_reserved (h : HostPort) (l : List Byte) :
    (h.takeFrame l).reserved = h.reserved := by unfold HostPort.takeFrame; split <;> simp
@[simp] theorem HostPort.takeFrame_delivery (h : HostPort) (l : List Byte) :
    (h.takeFrame l).delivery = h.delivery := by unfold HostPort.takeFrame; split <;> simp
@[simp] theorem HostPort.takeFrame_gaps (h : HostPort) (l : List Byte) :
    (h.takeFrame l).gaps = h.gaps := by unfold HostPort.takeFrame; split <;> simp
@[simp] theorem HostPort.takeFrame_heldOver (h : HostPort) (l : List Byte) :
    (h.takeFrame l).heldOver = h.heldOver := by unfold HostPort.takeFrame; split <;> simp
@[simp] theorem HostPort.takeFrame_hdo (h : HostPort) (l : List Byte) :
    (h.takeFrame l).hdo = h.hdo := by unfold HostPort.takeFrame; split <;> simp
@[simp] theorem HostPort.takeFrame_attached (h : HostPort) (l : List Byte) :
    (h.takeFrame l).attached = h.attached := by simp [HostPort.attached]

/-! ### takeEventset -/

@[simp] theorem HostPort.takeEventset_state (h : HostPort) (l : List Byte) :
    (h.takeEventset l).state = h.state := by
  unfold HostPort.takeEventset; repeat' split
  all_goals simp
@[simp] theorem HostPort.takeEventset_cause (h : HostPort) (l : List Byte) :
    (h.takeEventset l).cause = h.cause := by
  unfold HostPort.takeEventset; repeat' split
  all_goals simp
@[simp] theorem HostPort.takeEventset_leaseSetting (h : HostPort) (l : List Byte) :
    (h.takeEventset l).leaseSetting = h.leaseSetting := by
  unfold HostPort.takeEventset; repeat' split
  all_goals simp
@[simp] theorem HostPort.takeEventset_leaseTimer (h : HostPort) (l : List Byte) :
    (h.takeEventset l).leaseTimer = h.leaseTimer := by
  unfold HostPort.takeEventset; repeat' split
  all_goals simp
@[simp] theorem HostPort.takeEventset_lapseDue (h : HostPort) (l : List Byte) :
    (h.takeEventset l).lapseDue = h.lapseDue := by
  unfold HostPort.takeEventset; repeat' split
  all_goals simp
@[simp] theorem HostPort.takeEventset_requests (h : HostPort) (l : List Byte) :
    (h.takeEventset l).requests = h.requests := by
  unfold HostPort.takeEventset; repeat' split
  all_goals simp
@[simp] theorem HostPort.takeEventset_responses (h : HostPort) (l : List Byte) :
    (h.takeEventset l).responses = h.responses := by
  unfold HostPort.takeEventset; repeat' split
  all_goals simp
@[simp] theorem HostPort.takeEventset_txn (h : HostPort) (l : List Byte) :
    (h.takeEventset l).txn = h.txn := by
  unfold HostPort.takeEventset; repeat' split
  all_goals simp
@[simp] theorem HostPort.takeEventset_authority (h : HostPort) (l : List Byte) :
    (h.takeEventset l).authority = h.authority := by
  unfold HostPort.takeEventset; repeat' split
  all_goals simp
@[simp] theorem HostPort.takeEventset_reserved (h : HostPort) (l : List Byte) :
    (h.takeEventset l).reserved = h.reserved := by
  unfold HostPort.takeEventset; repeat' split
  all_goals simp
@[simp] theorem HostPort.takeEventset_delivery (h : HostPort) (l : List Byte) :
    (h.takeEventset l).delivery = h.delivery := by
  unfold HostPort.takeEventset; repeat' split
  all_goals simp
@[simp] theorem HostPort.takeEventset_gaps (h : HostPort) (l : List Byte) :
    (h.takeEventset l).gaps = h.gaps := by
  unfold HostPort.takeEventset; repeat' split
  all_goals simp
@[simp] theorem HostPort.takeEventset_heldOver (h : HostPort) (l : List Byte) :
    (h.takeEventset l).heldOver = h.heldOver := by
  unfold HostPort.takeEventset; repeat' split
  all_goals simp
@[simp] theorem HostPort.takeEventset_hdo (h : HostPort) (l : List Byte) :
    (h.takeEventset l).hdo = h.hdo := by
  unfold HostPort.takeEventset; repeat' split
  all_goals simp
@[simp] theorem HostPort.takeEventset_attached (h : HostPort) (l : List Byte) :
    (h.takeEventset l).attached = h.attached := by simp [HostPort.attached]

/-! ### What a raise and a notice can do -/

/-- A raise at a port that is not ATTACHED is no raise (R179). -/
theorem HostPort.raise_of_not_attached {h : HostPort} (k : EventKind) (ha : h.attached = false) :
    h.raise k = h := by simp [HostPort.raise, ha]

/-- A raise at an ATTACHED port (R179). -/
theorem HostPort.raise_of_attached {h : HostPort} (k : EventKind) (ha : h.attached = true) :
    h.raise k = { h with events := h.events.raise k } := by simp [HostPort.raise, ha]

@[simp] theorem EventUnit.raise_stack (e : EventUnit) (k : EventKind) : (e.raise k).stack = e.stack := rfl
@[simp] theorem EventUnit.raise_threshold (e : EventUnit) (k : EventKind) :
    (e.raise k).threshold = e.threshold := rfl

/-- A raise leaves the service stack as it was (R179). -/
@[simp] theorem HostPort.raise_stack (h : HostPort) (k : EventKind) :
    (h.raise k).events.stack = h.events.stack := by unfold HostPort.raise; split <;> rfl

/-- A raise leaves the threshold as it was (R179). -/
@[simp] theorem HostPort.raise_threshold (h : HostPort) (k : EventKind) :
    (h.raise k).events.threshold = h.events.threshold := by unfold HostPort.raise; split <;> rfl

@[simp] theorem HostPort.raiseIf_stack (h : HostPort) (c : Bool) (k : EventKind) :
    (h.raiseIf c k).events.stack = h.events.stack := by unfold HostPort.raiseIf; split <;> simp

@[simp] theorem HostPort.raiseIf_threshold (h : HostPort) (c : Bool) (k : EventKind) :
    (h.raiseIf c k).events.threshold = h.events.threshold := by unfold HostPort.raiseIf; split <;> simp

/-- A notice is not heard, or joins the tail with its events, or is dropped with OVERFLOW (R166). -/
theorem HostPort.post_cases (h : HostPort) (n : Notice) :
    (h.attached = false ∧ h.post n = h) ∨
    (h.attached = true ∧ h.hasFree = true ∧
      h.post n = (h.append (.notice n)).raiseIf n.ofStream .streamChange) ∨
    (h.attached = true ∧ h.hasFree = false ∧ h.post n = h.raise .overflow) := by
  unfold HostPort.post
  cases h.attached <;> cases h.hasFree <;> simp

@[simp] theorem HostPort.append_responses (h : HostPort) (e : ResponseEntry) :
    (h.append e).responses = h.responses ++ [e] := by simp [HostPort.append]

@[simp] theorem HostPort.append_stack (h : HostPort) (e : ResponseEntry) :
    (h.append e).events.stack = h.events.stack := by simp [HostPort.append]

@[simp] theorem HostPort.append_threshold (h : HostPort) (e : ResponseEntry) :
    (h.append e).events.threshold = h.events.threshold := by simp [HostPort.append]

@[simp] theorem HostPort.post_stack (h : HostPort) (n : Notice) :
    (h.post n).events.stack = h.events.stack := by
  rcases h.post_cases n with ⟨_, e⟩ | ⟨_, _, e⟩ | ⟨_, _, e⟩ <;> simp [e]

@[simp] theorem HostPort.post_threshold (h : HostPort) (n : Notice) :
    (h.post n).events.threshold = h.events.threshold := by
  rcases h.post_cases n with ⟨_, e⟩ | ⟨_, _, e⟩ | ⟨_, _, e⟩ <;> simp [e]

/-- A notice takes a free entry only, so that entries and reservation stay within eight (R41, R166). -/
theorem HostPort.post_room (h : HostPort) (n : Notice)
    (hr : h.responses.length + (if h.reserved then 1 else 0) ≤ 8) :
    (h.post n).responses.length + (if (h.post n).reserved then 1 else 0) ≤ 8 := by
  rcases h.post_cases n with ⟨_, e⟩ | ⟨_, hf, e⟩ | ⟨_, _, e⟩
  · simpa [e] using hr
  · have hf := of_decide_eq_true hf
    simp only [Config.responseRoom] at hf
    simp only [e, raiseIf_responses, append_responses, List.length_append, List.length_cons,
      List.length_nil, raiseIf_reserved, append_reserved]
    omega
  · simpa [e] using hr

/-- Nothing of a port but its responses and its events differs after a notice (R166). -/
theorem HostPort.post_same (h : HostPort) (n : Notice) :
    h.post n = { h with responses := (h.post n).responses, events := (h.post n).events } := by
  rcases h.post_cases n with ⟨_, e⟩ | ⟨ha, _, e⟩ | ⟨ha, _, e⟩
  · rw [e]
  · rw [e]; simp only [HostPort.append, HostPort.raiseIf, HostPort.raise]; repeat' split
    all_goals rfl
  · rw [e]; simp only [HostPort.raise]; split <;> rfl

end Sys2Proof.Machine
end

