-- ==== Sys2Proof/Laws/Tables.lean ====
section
/-! SUPPORT. The laws of tables: a read after a write, and how the other makers of tables read. -/

namespace Sys2Proof.Table

variable {α β : Type} {n : Nat}

theorem ext_cells {t u : Table α n} (h : t.cells = u.cells) : t = u := by
  cases t; cases u; cases h; rfl

/-- Two tables with the same cell at every index are equal. -/
theorem ext_get {t u : Table α n} (h : ∀ i, t.get i = u.get i) : t = u := by
  refine ext_cells (List.ext_getElem (t.size.trans u.size.symm) fun i h1 h2 => ?_)
  exact h ⟨i, t.size ▸ h1⟩

@[simp] theorem get_set_self (t : Table α n) (i : Fin n) (a : α) : (t.set i a).get i = a := by
  simp [get, set]

theorem get_set_ne (t : Table α n) {i j : Fin n} (a : α) (h : i ≠ j) :
    (t.set i a).get j = t.get j := by
  have : i.val ≠ j.val := fun e => h (Fin.ext e)
  simp [get, set, this]

/-- A read after a write, at any index. -/
theorem get_set (t : Table α n) (i j : Fin n) (a : α) :
    (t.set i a).get j = if i = j then a else t.get j := by
  split
  · next h => subst h; simp
  · next h => exact get_set_ne t a h

@[simp] theorem get_modify_self (t : Table α n) (i : Fin n) (f : α → α) :
    (t.modify i f).get i = f (t.get i) := by simp [modify]

theorem get_modify_ne (t : Table α n) {i j : Fin n} (f : α → α) (h : i ≠ j) :
    (t.modify i f).get j = t.get j := get_set_ne t _ h

/-- A read after a change, at any index. -/
theorem get_modify (t : Table α n) (i j : Fin n) (f : α → α) :
    (t.modify i f).get j = if i = j then f (t.get j) else t.get j := by
  split
  · next h => subst h; simp
  · next h => exact get_modify_ne t f h

@[simp] theorem get_tabulate (f : Fin n → α) (i : Fin n) : (tabulate f).get i = f i := by
  simp [get, tabulate]

@[simp] theorem get_fill (a : α) (i : Fin n) : (fill a : Table α n).get i = a := by
  simp [get, fill]

@[simp] theorem get_map (f : α → β) (t : Table α n) (i : Fin n) : (t.map f).get i = f (t.get i) := by
  simp [get, map]

@[simp] theorem modify_modify (t : Table α n) (i : Fin n) (f g : α → α) :
    (t.modify i f).modify i g = t.modify i fun a => g (f a) := by
  apply ext_get; intro j; simp only [get_modify]; split <;> rfl

theorem modify_congr (t : Table α n) (i : Fin n) {f g : α → α} (h : f (t.get i) = g (t.get i)) :
    t.modify i f = t.modify i g := by simp [modify, h]

@[simp] theorem modify_same (t : Table α n) (i : Fin n) : (t.modify i fun a => a) = t := by
  apply ext_get; intro j; simp [get_modify]

@[simp] theorem set_same (t : Table α n) (i : Fin n) : t.set i (t.get i) = t := by
  apply ext_get; intro j; rw [get_set]; split
  · next h => rw [h]
  · rfl

@[simp] theorem tabulate_get (t : Table α n) : tabulate t.get = t := by
  apply ext_get; intro j; simp

end Sys2Proof.Table
end

