-- ==== Sys2Proof/Laws/State.lean ====
section
/-! SUPPORT. What each shared operation leaves of the state as it was, field by field, and how the parts of
the state read after it. -/

namespace Sys2Proof.Machine

/-! ### Reading one port -/

@[simp] theorem State.modPort_ports (s : State) (p : Port) (f : HostPort → HostPort) :
    (s.modPort p f).ports = s.ports.modify p f := rfl
@[simp] theorem State.mapPorts_ports (s : State) (f : HostPort → HostPort) :
    (s.mapPorts f).ports = s.ports.map f := rfl
@[simp] theorem State.modPort_port_self (s : State) (p : Port) (f : HostPort → HostPort) :
    (s.modPort p f).port p = f (s.port p) := Table.get_modify_self _ _ _
theorem State.modPort_port_ne (s : State) {p q : Port} (f : HostPort → HostPort) (h : p ≠ q) :
    (s.modPort p f).port q = s.port q := Table.get_modify_ne _ _ h
@[simp] theorem State.mapPorts_port (s : State) (f : HostPort → HostPort) (p : Port) :
    (s.mapPorts f).port p = f (s.port p) := Table.get_map _ _ _
@[simp] theorem State.enterRing_port (s : State) (st : RingState) (r : RingReason) (p : Port) :
    (s.enterRing st r).port p = (s.port p).ringChanged st (s.ring.enter st).breakPos r :=
  Table.get_map _ _ _
@[simp] theorem State.modPort_modPort (s : State) (p : Port) (f g : HostPort → HostPort) :
    (s.modPort p f).modPort p g = s.modPort p fun h => g (f h) := by
  unfold State.modPort; rw [Table.modify_modify]

/-! ### Reading one entry, one node, one view -/

@[simp] theorem State.stagedView_get (s : State) (id : StreamId) :
    s.stagedView.get id = (s.entry id).staged := Table.get_map _ _ _
@[simp] theorem State.outgoingView_get (s : State) (id : StreamId) :
    s.outgoingView.get id = (s.entry id).outgoing := Table.get_map _ _ _
@[simp] theorem State.inForceView_get (s : State) (id : StreamId) :
    s.inForceView.get id = (s.entry id).inForce := Table.get_map _ _ _
@[simp] theorem State.updateNode_node_self (s : State) (p : Pos) (f : NodeEntry → NodeEntry) :
    (s.updateNode p f).node p = f (s.node p) := Table.get_set_self _ _ _
theorem State.updateNode_node_ne (s : State) {p q : Pos} (f : NodeEntry → NodeEntry) (h : p ≠ q) :
    (s.updateNode p f).node q = s.node q := Table.get_set_ne _ _ h
@[simp] theorem State.changeNode_node_self (s : State) (p : Pos) (f : NodeEntry → NodeEntry)
    (c : NodeCause) : (s.changeNode p f c).node p = f (s.node p) := Table.get_set_self _ _ _
theorem State.changeNode_node_ne (s : State) {p q : Pos} (f : NodeEntry → NodeEntry) (c : NodeCause)
    (h : p ≠ q) : (s.changeNode p f c).node q = s.node q := Table.get_set_ne _ _ h

/-! ### modPort -/

@[simp] theorem State.modPort_admission (s : State) (p : Port) (f : HostPort → HostPort) :
    (s.modPort p f).admission = s.admission := rfl
@[simp] theorem State.modPort_streams (s : State) (p : Port) (f : HostPort → HostPort) :
    (s.modPort p f).streams = s.streams := rfl
@[simp] theorem State.modPort_plans (s : State) (p : Port) (f : HostPort → HostPort) :
    (s.modPort p f).plans = s.plans := rfl
@[simp] theorem State.modPort_turnover (s : State) (p : Port) (f : HostPort → HostPort) :
    (s.modPort p f).turnover = s.turnover := rfl
@[simp] theorem State.modPort_ring (s : State) (p : Port) (f : HostPort → HostPort) :
    (s.modPort p f).ring = s.ring := rfl
@[simp] theorem State.modPort_control (s : State) (p : Port) (f : HostPort → HostPort) :
    (s.modPort p f).control = s.control := rfl
@[simp] theorem State.modPort_nodes (s : State) (p : Port) (f : HostPort → HostPort) :
    (s.modPort p f).nodes = s.nodes := rfl
@[simp] theorem State.modPort_mover (s : State) (p : Port) (f : HostPort → HostPort) :
    (s.modPort p f).mover = s.mover := rfl
@[simp] theorem State.modPort_nresetLow (s : State) (p : Port) (f : HostPort → HostPort) :
    (s.modPort p f).nresetLow = s.nresetLow := rfl
@[simp] theorem State.modPort_freeCount (s : State) (p : Port) (f : HostPort → HostPort) :
    (s.modPort p f).freeCount = s.freeCount := rfl
@[simp] theorem State.modPort_pending (s : State) (p : Port) (f : HostPort → HostPort) :
    (s.modPort p f).pending = s.pending := rfl

/-! ### mapPorts -/

@[simp] theorem State.mapPorts_admission (s : State) (f : HostPort → HostPort) :
    (s.mapPorts f).admission = s.admission := rfl
@[simp] theorem State.mapPorts_streams (s : State) (f : HostPort → HostPort) :
    (s.mapPorts f).streams = s.streams := rfl
@[simp] theorem State.mapPorts_plans (s : State) (f : HostPort → HostPort) :
    (s.mapPorts f).plans = s.plans := rfl
@[simp] theorem State.mapPorts_turnover (s : State) (f : HostPort → HostPort) :
    (s.mapPorts f).turnover = s.turnover := rfl
@[simp] theorem State.mapPorts_ring (s : State) (f : HostPort → HostPort) :
    (s.mapPorts f).ring = s.ring := rfl
@[simp] theorem State.mapPorts_control (s : State) (f : HostPort → HostPort) :
    (s.mapPorts f).control = s.control := rfl
@[simp] theorem State.mapPorts_nodes (s : State) (f : HostPort → HostPort) :
    (s.mapPorts f).nodes = s.nodes := rfl
@[simp] theorem State.mapPorts_mover (s : State) (f : HostPort → HostPort) :
    (s.mapPorts f).mover = s.mover := rfl
@[simp] theorem State.mapPorts_nresetLow (s : State) (f : HostPort → HostPort) :
    (s.mapPorts f).nresetLow = s.nresetLow := rfl
@[simp] theorem State.mapPorts_freeCount (s : State) (f : HostPort → HostPort) :
    (s.mapPorts f).freeCount = s.freeCount := rfl
@[simp] theorem State.mapPorts_pending (s : State) (f : HostPort → HostPort) :
    (s.mapPorts f).pending = s.pending := rfl

/-! ### postAll -/

@[simp] theorem State.postAll_admission (s : State) (l : List (Port × Notice)) :
    (s.postAll l).admission = s.admission := rfl
@[simp] theorem State.postAll_streams (s : State) (l : List (Port × Notice)) :
    (s.postAll l).streams = s.streams := rfl
@[simp] theorem State.postAll_plans (s : State) (l : List (Port × Notice)) :
    (s.postAll l).plans = s.plans := rfl
@[simp] theorem State.postAll_turnover (s : State) (l : List (Port × Notice)) :
    (s.postAll l).turnover = s.turnover := rfl
@[simp] theorem State.postAll_ring (s : State) (l : List (Port × Notice)) :
    (s.postAll l).ring = s.ring := rfl
@[simp] theorem State.postAll_control (s : State) (l : List (Port × Notice)) :
    (s.postAll l).control = s.control := rfl
@[simp] theorem State.postAll_nodes (s : State) (l : List (Port × Notice)) :
    (s.postAll l).nodes = s.nodes := rfl
@[simp] theorem State.postAll_mover (s : State) (l : List (Port × Notice)) :
    (s.postAll l).mover = s.mover := rfl
@[simp] theorem State.postAll_nresetLow (s : State) (l : List (Port × Notice)) :
    (s.postAll l).nresetLow = s.nresetLow := rfl
@[simp] theorem State.postAll_freeCount (s : State) (l : List (Port × Notice)) :
    (s.postAll l).freeCount = s.freeCount := rfl
@[simp] theorem State.postAll_pending (s : State) (l : List (Port × Notice)) :
    (s.postAll l).pending = s.pending := rfl

/-! ### noteBatch -/

@[simp] theorem State.noteBatch_ports (s : State) : s.noteBatch.ports = s.ports := rfl
@[simp] theorem State.noteBatch_streams (s : State) : s.noteBatch.streams = s.streams := rfl
@[simp] theorem State.noteBatch_plans (s : State) : s.noteBatch.plans = s.plans := rfl
@[simp] theorem State.noteBatch_ring (s : State) : s.noteBatch.ring = s.ring := rfl
@[simp] theorem State.noteBatch_control (s : State) : s.noteBatch.control = s.control := rfl
@[simp] theorem State.noteBatch_nodes (s : State) : s.noteBatch.nodes = s.nodes := rfl
@[simp] theorem State.noteBatch_mover (s : State) : s.noteBatch.mover = s.mover := rfl
@[simp] theorem State.noteBatch_nresetLow (s : State) : s.noteBatch.nresetLow = s.nresetLow := rfl
@[simp] theorem State.noteBatch_freeCount (s : State) : s.noteBatch.freeCount = s.freeCount := rfl
@[simp] theorem State.noteBatch_pending (s : State) : s.noteBatch.pending = s.pending := rfl

/-! ### queueInternal -/

@[simp] theorem State.queueInternal_ports (s : State) (e : InternalEntry) :
    (s.queueInternal e).ports = s.ports := rfl
@[simp] theorem State.queueInternal_streams (s : State) (e : InternalEntry) :
    (s.queueInternal e).streams = s.streams := rfl
@[simp] theorem State.queueInternal_plans (s : State) (e : InternalEntry) :
    (s.queueInternal e).plans = s.plans := rfl
@[simp] theorem State.queueInternal_turnover (s : State) (e : InternalEntry) :
    (s.queueInternal e).turnover = s.turnover := rfl
@[simp] theorem State.queueInternal_ring (s : State) (e : InternalEntry) :
    (s.queueInternal e).ring = s.ring := rfl
@[simp] theorem State.queueInternal_control (s : State) (e : InternalEntry) :
    (s.queueInternal e).control = s.control := rfl
@[simp] theorem State.queueInternal_nodes (s : State) (e : InternalEntry) :
    (s.queueInternal e).nodes = s.nodes := rfl
@[simp] theorem State.queueInternal_mover (s : State) (e : InternalEntry) :
    (s.queueInternal e).mover = s.mover := rfl
@[simp] theorem State.queueInternal_nresetLow (s : State) (e : InternalEntry) :
    (s.queueInternal e).nresetLow = s.nresetLow := rfl
@[simp] theorem State.queueInternal_freeCount (s : State) (e : InternalEntry) :
    (s.queueInternal e).freeCount = s.freeCount := rfl
@[simp] theorem State.queueInternal_pending (s : State) (e : InternalEntry) :
    (s.queueInternal e).pending = s.pending := rfl

/-! ### dropExchange -/

@[simp] theorem State.dropExchange_ports (s : State) (which : User → Bool) :
    (s.dropExchange which).ports = s.ports := rfl
@[simp] theorem State.dropExchange_admission (s : State) (which : User → Bool) :
    (s.dropExchange which).admission = s.admission := rfl
@[simp] theorem State.dropExchange_streams (s : State) (which : User → Bool) :
    (s.dropExchange which).streams = s.streams := rfl
@[simp] theorem State.dropExchange_plans (s : State) (which : User → Bool) :
    (s.dropExchange which).plans = s.plans := rfl
@[simp] theorem State.dropExchange_turnover (s : State) (which : User → Bool) :
    (s.dropExchange which).turnover = s.turnover := rfl
@[simp] theorem State.dropExchange_nodes (s : State) (which : User → Bool) :
    (s.dropExchange which).nodes = s.nodes := rfl
@[simp] theorem State.dropExchange_mover (s : State) (which : User → Bool) :
    (s.dropExchange which).mover = s.mover := rfl
@[simp] theorem State.dropExchange_nresetLow (s : State) (which : User → Bool) :
    (s.dropExchange which).nresetLow = s.nresetLow := rfl
@[simp] theorem State.dropExchange_freeCount (s : State) (which : User → Bool) :
    (s.dropExchange which).freeCount = s.freeCount := rfl
@[simp] theorem State.dropExchange_pending (s : State) (which : User → Bool) :
    (s.dropExchange which).pending = s.pending := rfl

/-! ### updateNode -/

@[simp] theorem State.updateNode_ports (s : State) (p : Pos) (f : NodeEntry → NodeEntry) :
    (s.updateNode p f).ports = s.ports := rfl
@[simp] theorem State.updateNode_admission (s : State) (p : Pos) (f : NodeEntry → NodeEntry) :
    (s.updateNode p f).admission = s.admission := rfl
@[simp] theorem State.updateNode_streams (s : State) (p : Pos) (f : NodeEntry → NodeEntry) :
    (s.updateNode p f).streams = s.streams := rfl
@[simp] theorem State.updateNode_plans (s : State) (p : Pos) (f : NodeEntry → NodeEntry) :
    (s.updateNode p f).plans = s.plans := rfl
@[simp] theorem State.updateNode_ring (s : State) (p : Pos) (f : NodeEntry → NodeEntry) :
    (s.updateNode p f).ring = s.ring := rfl
@[simp] theorem State.updateNode_control (s : State) (p : Pos) (f : NodeEntry → NodeEntry) :
    (s.updateNode p f).control = s.control := rfl
@[simp] theorem State.updateNode_mover (s : State) (p : Pos) (f : NodeEntry → NodeEntry) :
    (s.updateNode p f).mover = s.mover := rfl
@[simp] theorem State.updateNode_nresetLow (s : State) (p : Pos) (f : NodeEntry → NodeEntry) :
    (s.updateNode p f).nresetLow = s.nresetLow := rfl
@[simp] theorem State.updateNode_freeCount (s : State) (p : Pos) (f : NodeEntry → NodeEntry) :
    (s.updateNode p f).freeCount = s.freeCount := rfl
@[simp] theorem State.updateNode_pending (s : State) (p : Pos) (f : NodeEntry → NodeEntry) :
    (s.updateNode p f).pending = s.pending := rfl

/-! ### changeNode -/

@[simp] theorem State.changeNode_admission (s : State) (p : Pos) (f : NodeEntry → NodeEntry) (c : NodeCause) :
    (s.changeNode p f c).admission = s.admission := rfl
@[simp] theorem State.changeNode_streams (s : State) (p : Pos) (f : NodeEntry → NodeEntry) (c : NodeCause) :
    (s.changeNode p f c).streams = s.streams := rfl
@[simp] theorem State.changeNode_plans (s : State) (p : Pos) (f : NodeEntry → NodeEntry) (c : NodeCause) :
    (s.changeNode p f c).plans = s.plans := rfl
@[simp] theorem State.changeNode_ring (s : State) (p : Pos) (f : NodeEntry → NodeEntry) (c : NodeCause) :
    (s.changeNode p f c).ring = s.ring := rfl
@[simp] theorem State.changeNode_control (s : State) (p : Pos) (f : NodeEntry → NodeEntry) (c : NodeCause) :
    (s.changeNode p f c).control = s.control := rfl
@[simp] theorem State.changeNode_mover (s : State) (p : Pos) (f : NodeEntry → NodeEntry) (c : NodeCause) :
    (s.changeNode p f c).mover = s.mover := rfl
@[simp] theorem State.changeNode_nresetLow (s : State) (p : Pos) (f : NodeEntry → NodeEntry) (c : NodeCause) :
    (s.changeNode p f c).nresetLow = s.nresetLow := rfl
@[simp] theorem State.changeNode_freeCount (s : State) (p : Pos) (f : NodeEntry → NodeEntry) (c : NodeCause) :
    (s.changeNode p f c).freeCount = s.freeCount := rfl
@[simp] theorem State.changeNode_pending (s : State) (p : Pos) (f : NodeEntry → NodeEntry) (c : NodeCause) :
    (s.changeNode p f c).pending = s.pending := rfl

/-! ### enterRing -/

@[simp] theorem State.enterRing_admission (s : State) (st : RingState) (r : RingReason) :
    (s.enterRing st r).admission = s.admission := rfl
@[simp] theorem State.enterRing_streams (s : State) (st : RingState) (r : RingReason) :
    (s.enterRing st r).streams = s.streams := rfl
@[simp] theorem State.enterRing_plans (s : State) (st : RingState) (r : RingReason) :
    (s.enterRing st r).plans = s.plans := rfl
@[simp] theorem State.enterRing_control (s : State) (st : RingState) (r : RingReason) :
    (s.enterRing st r).control = s.control := rfl
@[simp] theorem State.enterRing_nodes (s : State) (st : RingState) (r : RingReason) :
    (s.enterRing st r).nodes = s.nodes := rfl
@[simp] theorem State.enterRing_mover (s : State) (st : RingState) (r : RingReason) :
    (s.enterRing st r).mover = s.mover := rfl
@[simp] theorem State.enterRing_nresetLow (s : State) (st : RingState) (r : RingReason) :
    (s.enterRing st r).nresetLow = s.nresetLow := rfl
@[simp] theorem State.enterRing_freeCount (s : State) (st : RingState) (r : RingReason) :
    (s.enterRing st r).freeCount = s.freeCount := rfl
@[simp] theorem State.enterRing_pending (s : State) (st : RingState) (r : RingReason) :
    (s.enterRing st r).pending = s.pending := rfl

/-! ### endSession -/

@[simp] theorem State.endSession_streams (s : State) (p : Port) :
    (s.endSession p).streams = s.streams := rfl
@[simp] theorem State.endSession_plans (s : State) (p : Port) : (s.endSession p).plans = s.plans := rfl
@[simp] theorem State.endSession_ring (s : State) (p : Port) : (s.endSession p).ring = s.ring := rfl
@[simp] theorem State.endSession_control (s : State) (p : Port) :
    (s.endSession p).control = s.control := rfl
@[simp] theorem State.endSession_nodes (s : State) (p : Port) : (s.endSession p).nodes = s.nodes := rfl
@[simp] theorem State.endSession_nresetLow (s : State) (p : Port) :
    (s.endSession p).nresetLow = s.nresetLow := rfl
@[simp] theorem State.endSession_freeCount (s : State) (p : Port) :
    (s.endSession p).freeCount = s.freeCount := rfl
@[simp] theorem State.endSession_pending (s : State) (p : Port) :
    (s.endSession p).pending = s.pending := rfl

/-! ### beginItem -/

@[simp] theorem State.beginItem_streams (s : State) (p : Port) (f : List Byte) :
    (s.beginItem p f).streams = s.streams := rfl
@[simp] theorem State.beginItem_plans (s : State) (p : Port) (f : List Byte) :
    (s.beginItem p f).plans = s.plans := rfl
@[simp] theorem State.beginItem_turnover (s : State) (p : Port) (f : List Byte) :
    (s.beginItem p f).turnover = s.turnover := rfl
@[simp] theorem State.beginItem_ring (s : State) (p : Port) (f : List Byte) :
    (s.beginItem p f).ring = s.ring := rfl
@[simp] theorem State.beginItem_control (s : State) (p : Port) (f : List Byte) :
    (s.beginItem p f).control = s.control := rfl
@[simp] theorem State.beginItem_nodes (s : State) (p : Port) (f : List Byte) :
    (s.beginItem p f).nodes = s.nodes := rfl
@[simp] theorem State.beginItem_mover (s : State) (p : Port) (f : List Byte) :
    (s.beginItem p f).mover = s.mover := rfl
@[simp] theorem State.beginItem_nresetLow (s : State) (p : Port) (f : List Byte) :
    (s.beginItem p f).nresetLow = s.nresetLow := rfl
@[simp] theorem State.beginItem_freeCount (s : State) (p : Port) (f : List Byte) :
    (s.beginItem p f).freeCount = s.freeCount := rfl
@[simp] theorem State.beginItem_pending (s : State) (p : Port) (f : List Byte) :
    (s.beginItem p f).pending = s.pending := rfl

/-! ### finishItem -/

@[simp] theorem State.finishItem_streams (s : State) (p : Port) (f : List Byte) (r : Reply) :
    (s.finishItem p f r).streams = s.streams := rfl
@[simp] theorem State.finishItem_plans (s : State) (p : Port) (f : List Byte) (r : Reply) :
    (s.finishItem p f r).plans = s.plans := rfl
@[simp] theorem State.finishItem_turnover (s : State) (p : Port) (f : List Byte) (r : Reply) :
    (s.finishItem p f r).turnover = s.turnover := rfl
@[simp] theorem State.finishItem_ring (s : State) (p : Port) (f : List Byte) (r : Reply) :
    (s.finishItem p f r).ring = s.ring := rfl
@[simp] theorem State.finishItem_control (s : State) (p : Port) (f : List Byte) (r : Reply) :
    (s.finishItem p f r).control = s.control := rfl
@[simp] theorem State.finishItem_nodes (s : State) (p : Port) (f : List Byte) (r : Reply) :
    (s.finishItem p f r).nodes = s.nodes := rfl
@[simp] theorem State.finishItem_mover (s : State) (p : Port) (f : List Byte) (r : Reply) :
    (s.finishItem p f r).mover = s.mover := rfl
@[simp] theorem State.finishItem_nresetLow (s : State) (p : Port) (f : List Byte) (r : Reply) :
    (s.finishItem p f r).nresetLow = s.nresetLow := rfl
@[simp] theorem State.finishItem_freeCount (s : State) (p : Port) (f : List Byte) (r : Reply) :
    (s.finishItem p f r).freeCount = s.freeCount := rfl
@[simp] theorem State.finishItem_pending (s : State) (p : Port) (f : List Byte) (r : Reply) :
    (s.finishItem p f r).pending = s.pending := rfl

/-! ### takePost -/

@[simp] theorem State.takePost_admission (s : State) (p : Port) (x : List Byte) :
    (s.takePost p x).admission = s.admission := rfl
@[simp] theorem State.takePost_streams (s : State) (p : Port) (x : List Byte) :
    (s.takePost p x).streams = s.streams := rfl
@[simp] theorem State.takePost_plans (s : State) (p : Port) (x : List Byte) :
    (s.takePost p x).plans = s.plans := rfl
@[simp] theorem State.takePost_turnover (s : State) (p : Port) (x : List Byte) :
    (s.takePost p x).turnover = s.turnover := rfl
@[simp] theorem State.takePost_ring (s : State) (p : Port) (x : List Byte) :
    (s.takePost p x).ring = s.ring := rfl
@[simp] theorem State.takePost_control (s : State) (p : Port) (x : List Byte) :
    (s.takePost p x).control = s.control := rfl
@[simp] theorem State.takePost_nodes (s : State) (p : Port) (x : List Byte) :
    (s.takePost p x).nodes = s.nodes := rfl
@[simp] theorem State.takePost_nresetLow (s : State) (p : Port) (x : List Byte) :
    (s.takePost p x).nresetLow = s.nresetLow := rfl
@[simp] theorem State.takePost_freeCount (s : State) (p : Port) (x : List Byte) :
    (s.takePost p x).freeCount = s.freeCount := rfl
@[simp] theorem State.takePost_pending (s : State) (p : Port) (x : List Byte) :
    (s.takePost p x).pending = s.pending := rfl

/-! ### finish -/

@[simp] theorem State.finish_admission (s : State) (p : Port) (t : Txn) :
    (s.finish p t).admission = s.admission := by unfold State.finish; split <;> rfl
@[simp] theorem State.finish_streams (s : State) (p : Port) (t : Txn) :
    (s.finish p t).streams = s.streams := by unfold State.finish; split <;> rfl
@[simp] theorem State.finish_plans (s : State) (p : Port) (t : Txn) :
    (s.finish p t).plans = s.plans := by unfold State.finish; split <;> rfl
@[simp] theorem State.finish_turnover (s : State) (p : Port) (t : Txn) :
    (s.finish p t).turnover = s.turnover := by unfold State.finish; split <;> rfl
@[simp] theorem State.finish_ring (s : State) (p : Port) (t : Txn) :
    (s.finish p t).ring = s.ring := by unfold State.finish; split <;> rfl
@[simp] theorem State.finish_control (s : State) (p : Port) (t : Txn) :
    (s.finish p t).control = s.control := by unfold State.finish; split <;> rfl
@[simp] theorem State.finish_nodes (s : State) (p : Port) (t : Txn) :
    (s.finish p t).nodes = s.nodes := by unfold State.finish; split <;> rfl
@[simp] theorem State.finish_nresetLow (s : State) (p : Port) (t : Txn) :
    (s.finish p t).nresetLow = s.nresetLow := by unfold State.finish; split <;> rfl
@[simp] theorem State.finish_freeCount (s : State) (p : Port) (t : Txn) :
    (s.finish p t).freeCount = s.freeCount := by unfold State.finish; split <;> rfl
@[simp] theorem State.finish_pending (s : State) (p : Port) (t : Txn) :
    (s.finish p t).pending = s.pending := by unfold State.finish; split <;> rfl

/-! ### finishEnded -/

/-- What holds of a state and is kept by each completion holds after all that waited for a lapse (R171). -/
theorem State.finishEnded_induct {P : State → Prop} {p : Port}
    (h : ∀ (s : State) (t : Txn), P s → P (s.finish p t)) (s : State)
    (hs : P (s.modPort p fun h => { h with ended := [] })) : P (s.finishEnded p) := by
  unfold State.finishEnded
  generalize (s.port p).ended = l
  generalize s.modPort p (fun h => { h with ended := [] }) = u at hs
  induction l generalizing u with
  | nil => exact hs
  | cons t l ih => exact ih _ (h u t hs)

@[simp] theorem State.finishEnded_admission (s : State) (p : Port) :
    (s.finishEnded p).admission = s.admission :=
  State.finishEnded_induct (P := fun u => u.admission = s.admission) (fun _ _ h => by simpa using h) s rfl
@[simp] theorem State.finishEnded_streams (s : State) (p : Port) :
    (s.finishEnded p).streams = s.streams :=
  State.finishEnded_induct (P := fun u => u.streams = s.streams) (fun _ _ h => by simpa using h) s rfl
@[simp] theorem State.finishEnded_plans (s : State) (p : Port) :
    (s.finishEnded p).plans = s.plans :=
  State.finishEnded_induct (P := fun u => u.plans = s.plans) (fun _ _ h => by simpa using h) s rfl
@[simp] theorem State.finishEnded_turnover (s : State) (p : Port) :
    (s.finishEnded p).turnover = s.turnover :=
  State.finishEnded_induct (P := fun u => u.turnover = s.turnover) (fun _ _ h => by simpa using h) s rfl
@[simp] theorem State.finishEnded_ring (s : State) (p : Port) :
    (s.finishEnded p).ring = s.ring :=
  State.finishEnded_induct (P := fun u => u.ring = s.ring) (fun _ _ h => by simpa using h) s rfl
@[simp] theorem State.finishEnded_control (s : State) (p : Port) :
    (s.finishEnded p).control = s.control :=
  State.finishEnded_induct (P := fun u => u.control = s.control) (fun _ _ h => by simpa using h) s rfl
@[simp] theorem State.finishEnded_nodes (s : State) (p : Port) :
    (s.finishEnded p).nodes = s.nodes :=
  State.finishEnded_induct (P := fun u => u.nodes = s.nodes) (fun _ _ h => by simpa using h) s rfl
@[simp] theorem State.finishEnded_nresetLow (s : State) (p : Port) :
    (s.finishEnded p).nresetLow = s.nresetLow :=
  State.finishEnded_induct (P := fun u => u.nresetLow = s.nresetLow) (fun _ _ h => by simpa using h) s rfl
@[simp] theorem State.finishEnded_freeCount (s : State) (p : Port) :
    (s.finishEnded p).freeCount = s.freeCount :=
  State.finishEnded_induct (P := fun u => u.freeCount = s.freeCount) (fun _ _ h => by simpa using h) s rfl
@[simp] theorem State.finishEnded_pending (s : State) (p : Port) :
    (s.finishEnded p).pending = s.pending :=
  State.finishEnded_induct (P := fun u => u.pending = s.pending) (fun _ _ h => by simpa using h) s rfl

/-! ### clocked -/

@[simp] theorem State.clocked_admission (s : State) (p : Port) (l : List Bool) :
    (s.clocked p l).admission = s.admission := rfl
@[simp] theorem State.clocked_streams (s : State) (p : Port) (l : List Bool) :
    (s.clocked p l).streams = s.streams := rfl
@[simp] theorem State.clocked_plans (s : State) (p : Port) (l : List Bool) :
    (s.clocked p l).plans = s.plans := rfl
@[simp] theorem State.clocked_turnover (s : State) (p : Port) (l : List Bool) :
    (s.clocked p l).turnover = s.turnover := rfl
@[simp] theorem State.clocked_ring (s : State) (p : Port) (l : List Bool) :
    (s.clocked p l).ring = s.ring := rfl
@[simp] theorem State.clocked_control (s : State) (p : Port) (l : List Bool) :
    (s.clocked p l).control = s.control := rfl
@[simp] theorem State.clocked_nodes (s : State) (p : Port) (l : List Bool) :
    (s.clocked p l).nodes = s.nodes := rfl
@[simp] theorem State.clocked_mover (s : State) (p : Port) (l : List Bool) :
    (s.clocked p l).mover = s.mover := rfl
@[simp] theorem State.clocked_nresetLow (s : State) (p : Port) (l : List Bool) :
    (s.clocked p l).nresetLow = s.nresetLow := rfl
@[simp] theorem State.clocked_pending (s : State) (p : Port) (l : List Bool) :
    (s.clocked p l).pending = s.pending := rfl

/-! ### release -/

@[simp] theorem State.release_admission (s : State) (p : Port) :
    (s.release p).admission = s.admission := by
  unfold State.release; dsimp only; repeat' split
  all_goals simp
@[simp] theorem State.release_streams (s : State) (p : Port) :
    (s.release p).streams = s.streams := by
  unfold State.release; dsimp only; repeat' split
  all_goals simp
@[simp] theorem State.release_plans (s : State) (p : Port) :
    (s.release p).plans = s.plans := by
  unfold State.release; dsimp only; repeat' split
  all_goals simp
@[simp] theorem State.release_turnover (s : State) (p : Port) :
    (s.release p).turnover = s.turnover := by
  unfold State.release; dsimp only; repeat' split
  all_goals simp
@[simp] theorem State.release_ring (s : State) (p : Port) :
    (s.release p).ring = s.ring := by
  unfold State.release; dsimp only; repeat' split
  all_goals simp
@[simp] theorem State.release_control (s : State) (p : Port) :
    (s.release p).control = s.control := by
  unfold State.release; dsimp only; repeat' split
  all_goals simp
@[simp] theorem State.release_nodes (s : State) (p : Port) :
    (s.release p).nodes = s.nodes := by
  unfold State.release; dsimp only; repeat' split
  all_goals simp
@[simp] theorem State.release_nresetLow (s : State) (p : Port) :
    (s.release p).nresetLow = s.nresetLow := by
  unfold State.release; dsimp only; repeat' split
  all_goals simp
@[simp] theorem State.release_freeCount (s : State) (p : Port) :
    (s.release p).freeCount = s.freeCount := by
  unfold State.release; dsimp only; repeat' split
  all_goals simp
@[simp] theorem State.release_pending (s : State) (p : Port) :
    (s.release p).pending = s.pending := by
  unfold State.release; dsimp only; repeat' split
  all_goals simp

/-! ### internalEdit -/

@[simp] theorem State.internalEdit_plans (s : State) (g : StreamId → Descriptor → StreamChange) :
    (s.internalEdit g).plans = s.plans := rfl
@[simp] theorem State.internalEdit_ring (s : State) (g : StreamId → Descriptor → StreamChange) :
    (s.internalEdit g).ring = s.ring := rfl
@[simp] theorem State.internalEdit_control (s : State) (g : StreamId → Descriptor → StreamChange) :
    (s.internalEdit g).control = s.control := rfl
@[simp] theorem State.internalEdit_nodes (s : State) (g : StreamId → Descriptor → StreamChange) :
    (s.internalEdit g).nodes = s.nodes := rfl
@[simp] theorem State.internalEdit_mover (s : State) (g : StreamId → Descriptor → StreamChange) :
    (s.internalEdit g).mover = s.mover := rfl
@[simp] theorem State.internalEdit_nresetLow (s : State) (g : StreamId → Descriptor → StreamChange) :
    (s.internalEdit g).nresetLow = s.nresetLow := rfl
@[simp] theorem State.internalEdit_freeCount (s : State) (g : StreamId → Descriptor → StreamChange) :
    (s.internalEdit g).freeCount = s.freeCount := rfl
@[simp] theorem State.internalEdit_pending (s : State) (g : StreamId → Descriptor → StreamChange) :
    (s.internalEdit g).pending = s.pending := rfl

/-! ### advanceWork -/

@[simp] theorem State.advanceWork_ports (s : State) : s.advanceWork.ports = s.ports := rfl
@[simp] theorem State.advanceWork_admission (s : State) : s.advanceWork.admission = s.admission := rfl
@[simp] theorem State.advanceWork_streams (s : State) : s.advanceWork.streams = s.streams := rfl
@[simp] theorem State.advanceWork_plans (s : State) : s.advanceWork.plans = s.plans := rfl
@[simp] theorem State.advanceWork_ring (s : State) : s.advanceWork.ring = s.ring := rfl
@[simp] theorem State.advanceWork_control (s : State) : s.advanceWork.control = s.control := rfl
@[simp] theorem State.advanceWork_nodes (s : State) : s.advanceWork.nodes = s.nodes := rfl
@[simp] theorem State.advanceWork_mover (s : State) : s.advanceWork.mover = s.mover := rfl
@[simp] theorem State.advanceWork_nresetLow (s : State) : s.advanceWork.nresetLow = s.nresetLow := rfl
@[simp] theorem State.advanceWork_freeCount (s : State) : s.advanceWork.freeCount = s.freeCount := rfl
@[simp] theorem State.advanceWork_pending (s : State) : s.advanceWork.pending = s.pending := rfl

/-! ### makeFreeze -/

@[simp] theorem State.makeFreeze_ports (s : State) : s.makeFreeze.ports = s.ports := rfl
@[simp] theorem State.makeFreeze_ring (s : State) : s.makeFreeze.ring = s.ring := rfl
@[simp] theorem State.makeFreeze_nodes (s : State) : s.makeFreeze.nodes = s.nodes := rfl
@[simp] theorem State.makeFreeze_mover (s : State) : s.makeFreeze.mover = s.mover := rfl
@[simp] theorem State.makeFreeze_nresetLow (s : State) : s.makeFreeze.nresetLow = s.nresetLow := rfl
@[simp] theorem State.makeFreeze_freeCount (s : State) : s.makeFreeze.freeCount = s.freeCount := rfl
@[simp] theorem State.makeFreeze_pending (s : State) : s.makeFreeze.pending = s.pending := rfl

/-! ### verifyNext -/

@[simp] theorem State.verifyNext_ports (s : State) : s.verifyNext.ports = s.ports := rfl
@[simp] theorem State.verifyNext_admission (s : State) : s.verifyNext.admission = s.admission := rfl
@[simp] theorem State.verifyNext_streams (s : State) : s.verifyNext.streams = s.streams := rfl
@[simp] theorem State.verifyNext_plans (s : State) : s.verifyNext.plans = s.plans := rfl
@[simp] theorem State.verifyNext_turnover (s : State) : s.verifyNext.turnover = s.turnover := rfl
@[simp] theorem State.verifyNext_ring (s : State) : s.verifyNext.ring = s.ring := rfl
@[simp] theorem State.verifyNext_control (s : State) : s.verifyNext.control = s.control := rfl
@[simp] theorem State.verifyNext_mover (s : State) : s.verifyNext.mover = s.mover := rfl
@[simp] theorem State.verifyNext_nresetLow (s : State) : s.verifyNext.nresetLow = s.nresetLow := rfl
@[simp] theorem State.verifyNext_freeCount (s : State) : s.verifyNext.freeCount = s.freeCount := rfl
@[simp] theorem State.verifyNext_pending (s : State) : s.verifyNext.pending = s.pending := rfl

/-! ### beginVerification -/

@[simp] theorem State.beginVerification_ports (s : State) : s.beginVerification.ports = s.ports := rfl
@[simp] theorem State.beginVerification_admission (s : State) :
    s.beginVerification.admission = s.admission := rfl
@[simp] theorem State.beginVerification_streams (s : State) :
    s.beginVerification.streams = s.streams := rfl
@[simp] theorem State.beginVerification_plans (s : State) : s.beginVerification.plans = s.plans := rfl
@[simp] theorem State.beginVerification_turnover (s : State) :
    s.beginVerification.turnover = s.turnover := rfl
@[simp] theorem State.beginVerification_ring (s : State) : s.beginVerification.ring = s.ring := rfl
@[simp] theorem State.beginVerification_control (s : State) :
    s.beginVerification.control = s.control := rfl
@[simp] theorem State.beginVerification_mover (s : State) : s.beginVerification.mover = s.mover := rfl
@[simp] theorem State.beginVerification_nresetLow (s : State) :
    s.beginVerification.nresetLow = s.nresetLow := rfl
@[simp] theorem State.beginVerification_freeCount (s : State) :
    s.beginVerification.freeCount = s.freeCount := rfl
@[simp] theorem State.beginVerification_pending (s : State) :
    s.beginVerification.pending = s.pending := rfl

/-! ### closeExchange -/

@[simp] theorem State.closeExchange_ports (s : State) : s.closeExchange.ports = s.ports := rfl
@[simp] theorem State.closeExchange_admission (s : State) : s.closeExchange.admission = s.admission := rfl
@[simp] theorem State.closeExchange_streams (s : State) : s.closeExchange.streams = s.streams := rfl
@[simp] theorem State.closeExchange_plans (s : State) : s.closeExchange.plans = s.plans := rfl
@[simp] theorem State.closeExchange_turnover (s : State) : s.closeExchange.turnover = s.turnover := rfl
@[simp] theorem State.closeExchange_ring (s : State) : s.closeExchange.ring = s.ring := rfl
@[simp] theorem State.closeExchange_nodes (s : State) : s.closeExchange.nodes = s.nodes := rfl
@[simp] theorem State.closeExchange_mover (s : State) : s.closeExchange.mover = s.mover := rfl
@[simp] theorem State.closeExchange_nresetLow (s : State) : s.closeExchange.nresetLow = s.nresetLow := rfl
@[simp] theorem State.closeExchange_freeCount (s : State) : s.closeExchange.freeCount = s.freeCount := rfl
@[simp] theorem State.closeExchange_pending (s : State) : s.closeExchange.pending = s.pending := rfl

/-! ### retryExchange -/

@[simp] theorem State.retryExchange_ports (s : State) (x : Exchange) :
    (s.retryExchange x).ports = s.ports := rfl
@[simp] theorem State.retryExchange_admission (s : State) (x : Exchange) :
    (s.retryExchange x).admission = s.admission := rfl
@[simp] theorem State.retryExchange_streams (s : State) (x : Exchange) :
    (s.retryExchange x).streams = s.streams := rfl
@[simp] theorem State.retryExchange_plans (s : State) (x : Exchange) :
    (s.retryExchange x).plans = s.plans := rfl
@[simp] theorem State.retryExchange_turnover (s : State) (x : Exchange) :
    (s.retryExchange x).turnover = s.turnover := rfl
@[simp] theorem State.retryExchange_ring (s : State) (x : Exchange) :
    (s.retryExchange x).ring = s.ring := rfl
@[simp] theorem State.retryExchange_nodes (s : State) (x : Exchange) :
    (s.retryExchange x).nodes = s.nodes := rfl
@[simp] theorem State.retryExchange_mover (s : State) (x : Exchange) :
    (s.retryExchange x).mover = s.mover := rfl
@[simp] theorem State.retryExchange_nresetLow (s : State) (x : Exchange) :
    (s.retryExchange x).nresetLow = s.nresetLow := rfl
@[simp] theorem State.retryExchange_freeCount (s : State) (x : Exchange) :
    (s.retryExchange x).freeCount = s.freeCount := rfl
@[simp] theorem State.retryExchange_pending (s : State) (x : Exchange) :
    (s.retryExchange x).pending = s.pending := rfl

/-! ### modWork -/

@[simp] theorem State.modWork_ports (s : State) (f : WorkItem → WorkItem) :
    (s.modWork f).ports = s.ports := rfl
@[simp] theorem State.modWork_admission (s : State) (f : WorkItem → WorkItem) :
    (s.modWork f).admission = s.admission := rfl
@[simp] theorem State.modWork_streams (s : State) (f : WorkItem → WorkItem) :
    (s.modWork f).streams = s.streams := rfl
@[simp] theorem State.modWork_plans (s : State) (f : WorkItem → WorkItem) :
    (s.modWork f).plans = s.plans := rfl
@[simp] theorem State.modWork_ring (s : State) (f : WorkItem → WorkItem) :
    (s.modWork f).ring = s.ring := rfl
@[simp] theorem State.modWork_control (s : State) (f : WorkItem → WorkItem) :
    (s.modWork f).control = s.control := rfl
@[simp] theorem State.modWork_nodes (s : State) (f : WorkItem → WorkItem) :
    (s.modWork f).nodes = s.nodes := rfl
@[simp] theorem State.modWork_mover (s : State) (f : WorkItem → WorkItem) :
    (s.modWork f).mover = s.mover := rfl
@[simp] theorem State.modWork_nresetLow (s : State) (f : WorkItem → WorkItem) :
    (s.modWork f).nresetLow = s.nresetLow := rfl
@[simp] theorem State.modWork_freeCount (s : State) (f : WorkItem → WorkItem) :
    (s.modWork f).freeCount = s.freeCount := rfl
@[simp] theorem State.modWork_pending (s : State) (f : WorkItem → WorkItem) :
    (s.modWork f).pending = s.pending := rfl

/-! ### reconcile -/

@[simp] theorem State.reconcile_control (s : State) (old : Retained) :
    (s.reconcile old).control = s.control := rfl
@[simp] theorem State.reconcile_mover (s : State) (old : Retained) :
    (s.reconcile old).mover = s.mover := rfl
@[simp] theorem State.reconcile_nresetLow (s : State) (old : Retained) :
    (s.reconcile old).nresetLow = s.nresetLow := rfl
@[simp] theorem State.reconcile_freeCount (s : State) (old : Retained) :
    (s.reconcile old).freeCount = s.freeCount := rfl
@[simp] theorem State.reconcile_pending (s : State) (old : Retained) :
    (s.reconcile old).pending = s.pending := rfl

/-! ### beginQuiet -/

@[simp] theorem State.beginQuiet_admission (s : State) (d : QuietDest) (r : RingReason) :
    (s.beginQuiet d r).admission = s.admission := rfl
@[simp] theorem State.beginQuiet_streams (s : State) (d : QuietDest) (r : RingReason) :
    (s.beginQuiet d r).streams = s.streams := rfl
@[simp] theorem State.beginQuiet_plans (s : State) (d : QuietDest) (r : RingReason) :
    (s.beginQuiet d r).plans = s.plans := rfl
@[simp] theorem State.beginQuiet_control (s : State) (d : QuietDest) (r : RingReason) :
    (s.beginQuiet d r).control = s.control := rfl
@[simp] theorem State.beginQuiet_nodes (s : State) (d : QuietDest) (r : RingReason) :
    (s.beginQuiet d r).nodes = s.nodes := rfl
@[simp] theorem State.beginQuiet_mover (s : State) (d : QuietDest) (r : RingReason) :
    (s.beginQuiet d r).mover = s.mover := rfl
@[simp] theorem State.beginQuiet_nresetLow (s : State) (d : QuietDest) (r : RingReason) :
    (s.beginQuiet d r).nresetLow = s.nresetLow := rfl
@[simp] theorem State.beginQuiet_freeCount (s : State) (d : QuietDest) (r : RingReason) :
    (s.beginQuiet d r).freeCount = s.freeCount := rfl
@[simp] theorem State.beginQuiet_pending (s : State) (d : QuietDest) (r : RingReason) :
    (s.beginQuiet d r).pending = s.pending := rfl

/-! ### discardRetired -/

@[simp] theorem State.discardRetired_ports (s : State) : s.discardRetired.ports = s.ports := rfl
@[simp] theorem State.discardRetired_admission (s : State) :
    s.discardRetired.admission = s.admission := rfl
@[simp] theorem State.discardRetired_streams (s : State) : s.discardRetired.streams = s.streams := rfl
@[simp] theorem State.discardRetired_turnover (s : State) : s.discardRetired.turnover = s.turnover := rfl
@[simp] theorem State.discardRetired_ring (s : State) : s.discardRetired.ring = s.ring := rfl
@[simp] theorem State.discardRetired_control (s : State) : s.discardRetired.control = s.control := rfl
@[simp] theorem State.discardRetired_nodes (s : State) : s.discardRetired.nodes = s.nodes := rfl
@[simp] theorem State.discardRetired_nresetLow (s : State) :
    s.discardRetired.nresetLow = s.nresetLow := rfl
@[simp] theorem State.discardRetired_freeCount (s : State) :
    s.discardRetired.freeCount = s.freeCount := rfl
@[simp] theorem State.discardRetired_pending (s : State) : s.discardRetired.pending = s.pending := rfl

/-! ### enterOff -/

@[simp] theorem State.enterOff_nresetLow (s : State) : s.enterOff.nresetLow = s.nresetLow := rfl
@[simp] theorem State.enterOff_freeCount (s : State) : s.enterOff.freeCount = s.freeCount := rfl
@[simp] theorem State.enterOff_pending (s : State) : s.enterOff.pending = s.pending := rfl

end Sys2Proof.Machine
end

