-- ==== Sys2Proof/Laws/Ops.lean ====
section
/-! SUPPORT. For each shared operation, what it can do, said once: the arbiter, the items, the internal edit
list, exchanges, the turnover, the ring state, sessions and transactions. -/

namespace Sys2Proof.Machine

/-! ## The arbiter and the items -/

/-- No lapse is due exactly when none is at any port. -/
theorem State.noLapseDue_iff {s : State} : s.noLapseDue = true ↔ ∀ p, (s.port p).lapseDue = false := by
  simp [State.noLapseDue, allPorts]

/-- What the arbiter took stands at the head of its port's queue, with no item in processing, no internal
entry waiting, no lapse due, and a free entry for the answer (R39, R40, R43). -/
theorem State.pick_some {s : State} {p : Port} {f : List Byte} (h : s.pick = some (p, f)) :
    s.admission.processing = none ∧ s.admission.internal = [] ∧
      (∃ rest, (s.port p).requests = f :: rest) ∧ (s.port p).hasFree = true ∧
      ∀ q, (s.port q).lapseDue = false := by
  unfold State.pick at h
  split at h
  · next hc =>
    simp only [Bool.and_eq_true, Option.isNone_iff_eq_none, List.isEmpty_iff] at hc
    split at h
    · next q hq =>
      obtain ⟨g, hg, e⟩ := Option.map_eq_some_iff.mp h
      cases e
      have he := List.find?_some hq
      simp only [HostPort.eligible, Bool.and_eq_true] at he
      exact ⟨hc.1.1, hc.1.2, ⟨_, List.eq_cons_of_mem_head? hg⟩, he.2, State.noLapseDue_iff.mp hc.2⟩
    · cases h
  · cases h

/-- The frame of an unknown kind is taken and refused; otherwise nothing happens (R46, R47). -/
theorem State.takeUnknown_cases (s : State) :
    s.takeUnknown = s ∨ ∃ p f r, s.pick = some (p, f) ∧ frameKind f = none ∧
      s.takeUnknown = (s.beginItem p f).finishItem p f (.refused r 0) := by
  unfold State.takeUnknown
  split
  · next p f hp =>
    split
    · next hk =>
      right
      unfold State.runItem
      by_cases ha : ((s.beginItem p f).port p).attached = true
      · exact ⟨p, f, .malformed, hp, hk, by simp [ha, refuse]⟩
      · exact ⟨p, f, .notAttached, hp, hk, by simp [ha, refuse]⟩
    · exact .inl rfl
  · exact .inl rfl

/-- With a frame of a known kind next, no frame of unknown kind is taken. -/
theorem State.takeUnknown_of_known {s : State} {p : Port} {f : List Byte} {k : RequestKind}
    (hp : s.pick = some (p, f)) (hk : frameKind f = some k) : s.takeUnknown = s := by
  simp [State.takeUnknown, hp, hk]

theorem State.takeUnknowns_of_known {s : State} {p : Port} {f : List Byte} {k : RequestKind}
    (hp : s.pick = some (p, f)) (hk : frameKind f = some k) (n : Nat) : s.takeUnknowns n = s := by
  induction n with
  | zero => rfl
  | succ n ih => rw [State.takeUnknowns, State.takeUnknown_of_known hp hk, ih]

/-- An invariant of one frame of unknown kind taken is one of all that are taken. -/
theorem State.takeUnknowns_induct {P : State → Prop} (h : ∀ s : State, P s → P s.takeUnknown) (n : Nat)
    (s : State) (hs : P s) : P (s.takeUnknowns n) := by
  induction n generalizing s with
  | zero => exact hs
  | succ n ih => exact ih _ (h s hs)

/-- A due lapse is carried out, and otherwise nothing happens (R172). -/
theorem State.settleLapse_of_not_due {s : State} {p : Port} (h : (s.port p).lapseDue = false) :
    s.settleLapse p = s := by simp [State.settleLapse, h]

/-- What a grant of a lapse can do: nothing while an item of the port is in processing or no lapse is due, and
else the lapse (R43, R172). -/
theorem State.grantLapse_cases (s : State) (p : Port) :
    (s.processingOf p = true ∨ (s.port p).lapseDue = false) ∧ s.grantLapse p = s ∨
      s.processingOf p = false ∧ (s.port p).lapseDue = true ∧ s.grantLapse p = s.lapse p := by
  unfold State.grantLapse State.settleLapse
  cases s.processingOf p <;> cases (s.port p).lapseDue <;> simp

theorem State.grantLapse_of_not_due {s : State} {p : Port} (h : (s.port p).lapseDue = false) :
    s.grantLapse p = s := by
  rcases s.grantLapse_cases p with ⟨_, e⟩ | ⟨_, h', _⟩
  · exact e
  · rw [h] at h'; cases h'

/-- With no lapse due, none is carried out. -/
theorem State.settleLapses_of_not_due {s : State} (h : ∀ p, (s.port p).lapseDue = false) :
    s.settleLapses = s := by
  unfold State.settleLapses
  generalize allPorts = l
  induction l with
  | nil => rfl
  | cons p l ih => rw [List.foldl_cons, State.grantLapse_of_not_due (h p)]; exact ih

/-- An invariant of one lapse is one of all that are due. -/
theorem State.settleLapses_induct {P : State → Prop} (h : ∀ (s : State) p, P s → P (s.settleLapse p))
    (s : State) (hs : P s) : P s.settleLapses := by
  unfold State.settleLapses
  generalize allPorts = l
  induction l generalizing s with
  | nil => exact hs
  | cons p l ih =>
    rw [List.foldl_cons]
    refine ih _ ?_
    unfold State.grantLapse
    split
    · exact hs
    · exact h s p hs

/-- The command of the kind that stands next takes that frame (R39, R40). -/
theorem State.takeRequest_of_pick {s : State} {p : Port} {f : List Byte} {k : RequestKind}
    (act : Port → List Byte → Effect) (hp : s.pick = some (p, f)) (hk : frameKind f = some k) :
    s.takeRequest k act = s.runItem p f (checked k p f (act p f)) := by
  unfold State.takeRequest State.settleUnknown
  rw [State.settleLapses_of_not_due (State.pick_some hp).2.2.2.2, State.takeUnknowns_of_known hp hk]
  simp [hp, hk]

/-- A request command carries out the lapses that are due, takes frames of unknown kind, and then one frame
of its kind or none (R40, R43). -/
theorem State.takeRequest_cases (s : State) (k : RequestKind) (act : Port → List Byte → Effect) :
    s.takeRequest k act = s.settleLapses.settleUnknown ∨
      ∃ p f, s.settleLapses.settleUnknown.pick = some (p, f) ∧ frameKind f = some k ∧
        s.takeRequest k act =
          s.settleLapses.settleUnknown.runItem p f (checked k p f (act p f)) := by
  unfold State.takeRequest
  dsimp only
  split
  · next p f hp =>
    split
    · next hk => exact .inr ⟨p, f, hp, hk, rfl⟩
    · exact .inl rfl
  · exact .inl rfl

/-- One request runs to its answer, or has none (R39, R48). -/
theorem State.runItem_cases (s : State) (p : Port) (f : List Byte) (act : Effect) :
    (∃ r, (act (s.beginItem p f)).2 = some r ∧
      s.runItem p f act = (act (s.beginItem p f)).1.finishItem p f r) ∨
    ((act (s.beginItem p f)).2 = none ∧ s.runItem p f act = (act (s.beginItem p f)).1) := by
  unfold State.runItem
  rcases act (s.beginItem p f) with ⟨t, _ | r⟩
  · exact .inr ⟨rfl, rfl⟩
  · exact .inl ⟨r, rfl, rfl⟩

/-- The check order's first two steps refuse, or the request's own meaning follows (R45, R47). -/
theorem checked_cases (k : RequestKind) (p : Port) (f : List Byte) (act : Effect) (s : State) :
    (k ≠ .attach ∧ (s.port p).attached = false ∧
      checked k p f act s = (s, some (.refused .notAttached 0))) ∨
    ((k = .attach ∨ (s.port p).attached = true) ∧ frameWellFormed k f = false ∧
      checked k p f act s = (s, some (.refused .malformed 0))) ∨
    ((k = .attach ∨ (s.port p).attached = true) ∧ frameWellFormed k f = true ∧
      checked k p f act s = act s) := by
  unfold checked refuse
  by_cases hk : k = .attach <;> cases (s.port p).attached <;> cases frameWellFormed k f <;> simp [hk]

/-- A frame taken and answered at once is the answer and nothing else (R39, R40, R41, R48). -/
theorem State.finishItem_beginItem {s : State} (p : Port) (f : List Byte) (r : Reply)
    (h : s.admission.processing = none) :
    (s.beginItem p f).finishItem p f r = s.afterAnswer p f r := by
  unfold State.finishItem State.beginItem State.afterAnswer
  rw [← h]
  simp only [Table.modify_modify]
  rfl

/-- An accepted or refused edit: what a judgement leads to (R18, R19, R45, R48). -/
theorem editing_cases (judge : Port → List Byte → State → Except Denial Edit) (p : Port) (f : List Byte)
    (s : State) :
    (∃ d, judge p f s = .error d ∧ editing judge p f s = (s, some (.refused d.1 d.2))) ∨
      ∃ e, judge p f s = .ok e ∧ editing judge p f s = s.applyEdit p e := by
  unfold editing
  cases h : judge p f s with
  | error d => exact .inl ⟨d, rfl, rfl⟩
  | ok e => exact .inr ⟨e, rfl, rfl⟩

/-! ## The batch and the internal edit list -/

/-- Gathering starts from IDLE alone; in every other state the controller stays as it is (R67). -/
theorem Turnover.startGathering_cases (t : Turnover) (running : Bool) (window : Nat) :
    (t.state ≠ .idle ∧ t.startGathering running window = t) ∨
    (t.state = .idle ∧ window = 0 ∧ running = false ∧
      t.startGathering running window = { t with state := .waiting, gather := 0 }) ∨
    (t.state = .idle ∧ (window ≠ 0 ∨ running = true) ∧
      t.startGathering running window = { t with state := .gathering, gather := window }) := by
  unfold Turnover.startGathering
  split
  · next h =>
    split
    · next hc => exact .inr (.inl ⟨h, hc.1, hc.2, rfl⟩)
    · next hc =>
      refine .inr (.inr ⟨h, ?_, rfl⟩)
      cases running <;> simp_all
  all_goals next h => exact .inl ⟨by simp [h], rfl⟩

theorem InternalEntry.sameSubject_comm (a b : InternalEntry) : a.sameSubject b = b.sameSubject a := by
  cases a <;> cases b <;> simp [InternalEntry.sameSubject, Bool.beq_comm]

/-- No two entries of the internal edit list come to be for one port or one position (R57). -/
theorem enqueue_pairwise {l : List InternalEntry} (e : InternalEntry)
    (h : l.Pairwise fun a b => a.sameSubject b = false) :
    (enqueue l e).Pairwise fun a b => a.sameSubject b = false := by
  unfold enqueue
  split
  · exact h
  · next hn =>
    refine List.pairwise_append.mpr ⟨h, by simp, fun a ha b hb => ?_⟩
    rw [List.mem_singleton.mp hb]
    by_contra hc
    refine hn (List.any_eq_true.mpr ⟨a, ha, ?_⟩)
    rw [InternalEntry.sameSubject_comm]
    simpa using hc

/-! ## Node changes -/

@[simp] theorem State.changeNodes_cons (s : State) (p : Pos) (ps : List Pos) (f : NodeEntry → NodeEntry)
    (c : NodeCause) : s.changeNodes (p :: ps) f c = (s.changeNode p f c).changeNodes ps f c := rfl

@[simp] theorem State.changeNodes_nil (s : State) (f : NodeEntry → NodeEntry) (c : NodeCause) :
    s.changeNodes [] f c = s := rfl

/-- An invariant of one node's change is one of any number. -/
theorem State.changeNodes_induct {P : State → Prop} {f : NodeEntry → NodeEntry} {c : NodeCause}
    (h : ∀ (s : State) p, P s → P (s.changeNode p f c)) (ps : List Pos) (s : State) (hs : P s) :
    P (s.changeNodes ps f c) := by
  induction ps generalizing s with
  | nil => exact hs
  | cons p ps ih => exact ih _ (h s p hs)

/-- Node changes reach the Node Table's entries, notices, and the freeze claim of the turnover (R71, R129). -/
theorem State.changeNodes_frame (s : State) (ps : List Pos) (f : NodeEntry → NodeEntry) (c : NodeCause) :
    ∃ claim, s.changeNodes ps f c = { s with
      ports := (s.changeNodes ps f c).ports
      nodes := { s.nodes with entries := (s.changeNodes ps f c).nodes.entries }
      turnover := { s.turnover with claim := claim } } := by
  induction ps generalizing s with
  | nil => exact ⟨s.turnover.claim, rfl⟩
  | cons p ps ih =>
    obtain ⟨claim, e⟩ := ih (s.changeNode p f c)
    exact ⟨claim, by rw [State.changeNodes_cons]; conv_lhs => rw [e]
                     rfl⟩

/-! ## Turnover and ring state -/

/-- An abandon does nothing unless a turnover is in flight (R83). -/
theorem State.abandon_of_not_inFlight {s : State} (h : s.turnover.inFlight = false) : s.abandon = s := by
  simp [State.abandon, h]

/-- An abandon leaves the ring's state, the nodes, the ports and the Slot Mover, and the staged and in-force
views (R83). -/
theorem State.abandon_frame (s : State) :
    s.abandon = { s with
      streams := s.abandon.streams
      plans := { s.plans with outgoing := s.abandon.plans.outgoing }
      admission :=
        { s.admission with
          batchEmpty := s.abandon.admission.batchEmpty
          batchTickets := s.abandon.admission.batchTickets }
      turnover := { s.abandon.turnover with gather := s.turnover.gather, epoch := s.turnover.epoch }
      ring := { s.ring with sent := s.abandon.ring.sent }
      control :=
        { s.control with
          exchange := s.abandon.control.exchange, attempt := s.abandon.control.attempt } } := by
  unfold State.abandon
  split
  · unfold State.dropExchange; dsimp only; split <;> rfl
  · rfl

@[simp] theorem State.abandon_staged (s : State) (id : StreamId) :
    (s.abandon.entry id).staged = (s.entry id).staged := by
  unfold State.abandon; split
  · simp [State.entry, Entry.abandoned, State.dropExchange]
  · rfl

@[simp] theorem State.abandon_inForce (s : State) (id : StreamId) :
    (s.abandon.entry id).inForce = (s.entry id).inForce := by
  unfold State.abandon; split
  · simp [State.entry, Entry.abandoned, State.dropExchange]
  · rfl

/-- After an abandon no turnover is in flight (R83). -/
@[simp] theorem State.abandon_not_inFlight (s : State) : s.abandon.turnover.inFlight = false := by
  unfold State.abandon; split
  · rfl
  · next h => simpa using h

/-- Leaving RUNNING does nothing in any other state (R83, R142). -/
theorem State.leaveRunning_of_not_running {s : State} (failing : Bool) (h : s.running = false) :
    s.leaveRunning failing = s := by simp [State.leaveRunning, h]

/-- What the skips leave of a work list (R78). -/
theorem skipWork_skipsTo (ready : Pos → Bool) (l : List WorkItem) :
    skipsTo (fun p => ready p = true) l (skipWork ready l) := by
  induction l with
  | nil => exact ⟨[], [], rfl, rfl, by simp, by simp⟩
  | cons w ws ih =>
    obtain ⟨a, b, hw, hs, ha, hb⟩ := ih
    by_cases o : w.outcome = .opened
    · by_cases r : ready w.position = true
      · exact ⟨[], w :: ws, rfl, by simp [skipWork, o, r], by simp, by simp [o, r]⟩
      · exact ⟨w :: a, b, by simp [hw], by simp [skipWork, o, r, hs], by simpa [o, r] using ha, hb⟩
    · exact ⟨w :: a, b, by simp [hw], by simp [skipWork, o, hs], by simpa [o] using ha, hb⟩

/-- No work item is OPEN (R79). -/
theorem workDone_iff {l : List WorkItem} : workDone l = true ↔ ∀ w ∈ l, w.outcome ≠ .opened := by
  simp [workDone]

/-- The Turnover Controller goes on to its next work item by the Node Table as it stands, or stays (R78, R79). -/
theorem State.advanceWork_goesOn (s : State) : s.goesOn s.advanceWork s.turnover.work false := by
  have skips : skipsTo (fun p => (s.node p).state = .ready) s.turnover.work
      (skipWork s.ready s.turnover.work) := by
    simpa [State.ready] using skipWork_skipsTo s.ready s.turnover.work
  refine ⟨fun h => ⟨_, skips, ?_⟩, fun h => ?_⟩
  · by_cases d : workDone (skipWork s.ready s.turnover.work) = true
    · have n := workDone_iff.mp d
      simp only [State.advanceWork, Turnover.advance, h, d, if_true]
      rw [if_neg fun ⟨w, hw, e⟩ => n w hw e]
    · have n : ∃ w ∈ skipWork s.ready s.turnover.work, w.outcome = .opened := by
        simpa [workDone] using d
      simp [State.advanceWork, Turnover.advance, h, d, n]
  · simp [State.advanceWork, Turnover.advance, h]

/-! ## Sessions -/

/-- A lapse ends an ATTACHED port's session, and at another port clears only its own mark; the transactions
completed while it was due take their effect after it (R171, R172). -/
theorem State.lapse_cases (s : State) (p : Port) :
    ((s.port p).attached = true ∧ s.lapse p =
      ((s.endSession p).modPort p fun h =>
        { h with state := .lapsed, lapseDue := false, leaseTimer := none }).finishEnded p) ∨
    ((s.port p).attached = false ∧
      s.lapse p = (s.modPort p fun h => { h with lapseDue := false }).finishEnded p) := by
  unfold State.lapse
  cases (s.port p).attached <;> simp

/-- With no completed transaction waiting, the end of a lapse leaves the state as it is (R171). -/
theorem State.finishEnded_of_none {s : State} {p : Port} (h : (s.port p).ended = []) :
    s.finishEnded p = s := by
  have e (x : HostPort) (hx : x.ended = []) : { x with ended := [] } = x := by rw [← hx]
  unfold State.finishEnded State.modPort Table.modify
  rw [h, List.foldl_nil]
  dsimp only
  rw [e (s.ports.get p) h, Table.set_same]

/-! ## Transactions -/

/-- An octet read from its bits is the octet (R186). -/
@[simp] theorem octetOf_octetBits (b : Byte) : octetOf (octetBits b) = b := by revert b; decide +kernel

@[simp] theorem octetBits_length (b : Byte) : (octetBits b).length = 8 := rfl

@[simp] theorem spiBits_nil : spiBits [] = [] := rfl
@[simp] theorem spiBits_cons (b : Byte) (l : List Byte) : spiBits (b :: l) = octetBits b ++ spiBits l := rfl
@[simp] theorem spiBits_append (l m : List Byte) : spiBits (l ++ m) = spiBits l ++ spiBits m :=
  List.flatMap_append
@[simp] theorem spiBits_length (l : List Byte) : (spiBits l).length = 8 * l.length := by
  induction l with
  | nil => rfl
  | cons b l ih => rw [spiBits_cons, List.length_append, ih, octetBits_length, List.length_cons]; omega

/-- The bits of octets of 0 are bits of 0. -/
theorem spiBits_zeros (n : Nat) : spiBits (zeros n) = List.replicate (8 * n) false := by
  induction n with
  | zero => rfl
  | succ n ih =>
    rw [zeros, List.replicate_succ, spiBits_cons, ← zeros, ih, show octetBits 0 = List.replicate 8 false from rfl,
      List.replicate_append_replicate]
    congr 1; omega

/-- The kind that the bits of a whole transaction name is that of their header code (R162). -/
theorem headerKind_txnBits (code low : BitVec 4) (octets : List Byte) :
    headerKind (octetOf ((txnBits code low octets).take 8)) = headerKind (code ++ low : Byte) := by
  rw [txnBits, spiBits_cons, List.take_left' (octetBits_length _), octetOf_octetBits]

/-- The eighth clock of an octet does not look at the bits held before it. -/
@[simp] theorem HostPort.endOctet_bits (h : HostPort) (block : HostPort → List Byte) (t : Txn) (l : List Bool)
    (b : Byte) : h.endOctet block { t with bits := l } b = h.endOctet block t b := by
  obtain ⟨k, _, _, _, _⟩ := t
  rcases k with - | k
  · rfl
  · cases k <;> rfl

/-- A DRAIN that has chosen what to send keeps to it (R157). -/
theorem Txn.outgoing_outgoing (t : Txn) (q r : List Record) (l : List Bool) :
    ({ t.outgoing q with bits := l } : Txn).outgoing r = { t.outgoing q with bits := l } := by
  obtain ⟨k, b, x, o, m⟩ := t
  unfold Txn.outgoing
  by_cases hk : k = some .drain
  · subst hk
    cases o with
    | cons a o => simp [Txn.drainNext]
    | nil => cases q <;> simp [Txn.drainNext, Record.octets, emptyMarker]
  · simp [hk]

@[simp] theorem Txn.outgoing_kind (t : Txn) (q : List Record) : (t.outgoing q).kind = t.kind := by
  unfold Txn.outgoing Txn.drainNext; repeat' split
  all_goals rfl
@[simp] theorem Txn.outgoing_bits (t : Txn) (q : List Record) : (t.outgoing q).bits = t.bits := by
  unfold Txn.outgoing Txn.drainNext; repeat' split
  all_goals rfl
@[simp] theorem Txn.outgoing_taken (t : Txn) (q : List Record) : (t.outgoing q).taken = t.taken := by
  unfold Txn.outgoing Txn.drainNext; repeat' split
  all_goals rfl

/-- What a transaction other than a DRAIN sends is what it holds. -/
theorem Txn.outgoing_of_ne {t : Txn} (q : List Record) (h : t.kind ≠ some .drain) : t.outgoing q = t := by
  simp [Txn.outgoing, h]

theorem getD_cons_take_drop {α : Type} {l : List α} {n : Nat} (h : n < l.length) (m : Nat) (d : α) :
    l.getD n d :: (l.drop (n + 1)).take m = (l.drop n).take (m + 1) := by
  rw [List.drop_eq_getElem_cons h, List.take_succ_cons, List.getD_eq_getElem _ _ h]

/-- The clocks that leave an octet unfinished: their bits are held, and as many go out (R162). -/
theorem HostPort.clockBits_short (block : HostPort → List Byte) (l : List Bool) (h : HostPort) (t : Txn)
    (ht : h.txn = some t) (hn : t.bits.length + l.length < 8) (h0 : l ≠ []) :
    l.foldl (HostPort.clockBit block) h = { h with
      txn := some { t.outgoing h.delivery with bits := t.bits ++ l }
      hdo := h.hdo ++
        ((octetBits ((t.outgoing h.delivery).sending.headD 0)).drop t.bits.length).take l.length } := by
  induction l generalizing h t with
  | nil => exact absurd rfl h0
  | cons b l ih =>
    have hb : t.bits.length < 7 := by simp only [List.length_cons] at hn; omega
    have one : HostPort.clockBit block h b = { h with
        txn := some { t.outgoing h.delivery with bits := t.bits ++ [b] }
        hdo := h.hdo ++ [(t.outgoing h.delivery).nextBit] } := by
      unfold HostPort.clockBit
      simp only [ht, Txn.outgoing_bits]
      rw [if_neg (by omega)]
    have nb : (t.outgoing h.delivery).nextBit ::
          ((octetBits ((t.outgoing h.delivery).sending.headD 0)).drop (t.bits.length + 1)).take l.length =
        ((octetBits ((t.outgoing h.delivery).sending.headD 0)).drop t.bits.length).take (l.length + 1) := by
      rw [Txn.nextBit, Txn.outgoing_bits]
      exact getD_cons_take_drop (by rw [octetBits_length]; omega) _ _
    rw [List.foldl_cons, one, List.length_cons, ← nb]
    rcases eq_or_ne l [] with rfl | hl
    · simp
    · rw [ih _ _ rfl (by simp only [List.length_append, List.length_cons, List.length_nil] at hn ⊢; omega) hl,
        Txn.outgoing_outgoing]
      simp only [List.append_assoc, List.singleton_append, List.length_append, List.length_cons,
        List.length_nil, Nat.zero_add]

/-- The eight clocks of an octet with nothing of it clocked before: the octet being sent goes out, and the octet
that came in ends (R157, R162). -/
theorem HostPort.clockBits_octet (block : HostPort → List Byte) (h : HostPort) (t : Txn) (b : Byte)
    (ht : h.txn = some t) (h0 : t.bits = []) :
    (octetBits b).foldl (HostPort.clockBit block) h =
      ({ h with
        txn := some { t.outgoing h.delivery with bits := (octetBits b).take 7 }
        hdo := h.hdo ++ octetBits ((t.outgoing h.delivery).sending.headD 0) } : HostPort).endOctet block
          (t.outgoing h.delivery) b := by
  have hs : octetBits b = (octetBits b).take 7 ++ [b.getLsbD 0] := rfl
  conv_lhs => rw [hs, List.foldl_append, List.foldl_cons, List.foldl_nil]
  rw [HostPort.clockBits_short block _ h t ht (by simp [h0]) (by simp [octetBits])]
  unfold HostPort.clockBit
  dsimp only
  rw [Txn.outgoing_outgoing, h0, List.nil_append]
  have hl : ((octetBits b).take 7).length = 7 := rfl
  rw [if_pos hl, ← hs, octetOf_octetBits, HostPort.endOctet_bits]
  congr 2
  simp only [List.length_nil, List.drop_zero, hl, Txn.nextBit, List.append_assoc]
  rfl

/-- The end of an octet leaves a transaction in progress that holds no bits of the next one. -/
theorem HostPort.endOctet_txn (h : HostPort) (block : HostPort → List Byte) (t : Txn) (b : Byte) :
    ∃ x, (h.endOctet block t b).txn = some x ∧ x.bits = [] := by
  unfold HostPort.endOctet HostPort.serve
  repeat' split
  all_goals exact ⟨_, rfl, rfl⟩

/-- The eight clocks of an octet as one step, for a port with no bits of the octet clocked before. -/
def HostPort.clockOctet (block : HostPort → List Byte) (h : HostPort) (b : Byte) : HostPort :=
  match h.txn with
  | none => h
  | some t =>
    ({ h with
      txn := some { t.outgoing h.delivery with bits := (octetBits b).take 7 }
      hdo := h.hdo ++ octetBits ((t.outgoing h.delivery).sending.headD 0) } : HostPort).endOctet block
        (t.outgoing h.delivery) b

/-- Whole octets clocked are their steps one after another (R162, R186). -/
theorem HostPort.clockBits_spiBits (block : HostPort → List Byte) (l : List Byte) (h : HostPort) (t : Txn)
    (ht : h.txn = some t) (h0 : t.bits = []) :
    (spiBits l).foldl (HostPort.clockBit block) h = l.foldl (HostPort.clockOctet block) h := by
  induction l generalizing h t with
  | nil => rfl
  | cons b l ih =>
    rw [spiBits_cons, List.foldl_append, List.foldl_cons]
    have e : (octetBits b).foldl (HostPort.clockBit block) h = h.clockOctet block b := by
      rw [HostPort.clockBits_octet block h t b ht h0, HostPort.clockOctet, ht]
    rw [e]
    have hx : ∃ x, (h.clockOctet block b).txn = some x ∧ x.bits = [] := by
      rw [HostPort.clockOctet, ht]; exact HostPort.endOctet_txn _ _ _ _
    obtain ⟨x, h1, h2⟩ := hx
    exact ih _ x h1 h2

/-- A port after the bits of a whole transaction from the assertion of its select on: the header's end serves
the kind it names, and the octets follow (R162, R163). -/
theorem State.clocked_txnBits {s : State} {p : Port} (h : (s.port p).txn = none) (code low : BitVec 4)
    (octets : List Byte) :
    (s.clocked p (txnBits code low octets)).port p =
      octets.foldl (HostPort.clockOctet (s.blockOf p))
        (((s.port p).select s.running).clockOctet (s.blockOf p) (code ++ low)) := by
  have e : (s.port p).select s.running = { s.port p with
      txn := some (Txn.header ((s.port p).statusOctet s.running)), hdo := [] } := by
    simp [HostPort.select, h]
  unfold State.clocked txnBits State.port
  dsimp only
  rw [Table.get_set_self, HostPort.clockBits_spiBits (t := Txn.header ((s.port p).statusOctet s.running)),
    List.foldl_cons]
  · exact congrArg HostPort.txn e
  · rfl

/-- A transaction command at a port that listens: the bits are clocked, and the release follows (R162). -/
theorem State.transact_of_listens {s : State} {p : Port} (h : s.listens p) (k : TxnKind)
    (bits : List Bool) (release : Bool)
    (hk : ((s.clocked p bits).port p).kind = none ∨ ((s.clocked p bits).port p).kind = some k) :
    s.transact k p bits release =
      if release then (s.clocked p bits).release p else s.clocked p bits := by
  obtain ⟨h1, h2, h3, h4⟩ := h
  simp [State.transact, h1, h2, State.grantLapse_of_not_due h3, hk]

/-- Every transaction command answers a next state. -/
theorem exec_command (k : TxnKind) (code : BitVec 4) (p : Port) (bits : List Bool) (release : Bool) (s : State) :
    exec (k.command code p bits release) s = .next (s.transact k p bits release) := by
  cases k <;> rfl

/-! ## Returns -/

/-- An invariant of a DRAIN command and of one record or gap is one of a whole return's extraction (R152,
R156). -/
theorem State.handle_induct {P : State → Prop} {r : CycleRecord} {cls : ReturnClass}
    (hd : ∀ (s : State) (d : DrainPart), P s → P (s.transact .drain d.port d.bits d.release))
    (hr : ∀ (s : State) p pl, P s → P (s.modPort p fun h => h.receive r cls pl))
    (l : List (Port × Placement)) (drains : List (List DrainPart)) (s : State) (hs : P s) :
    P (State.handle r cls l drains s) := by
  have hl (ds : List DrainPart) : ∀ s : State, P s → P (s.drainParts ds) := by
    induction ds with
    | nil => exact fun _ h => h
    | cons d ds ih => exact fun s h => ih _ (hd s d h)
  induction l generalizing drains s with
  | nil => exact hs
  | cons x l ih =>
    cases drains with
    | nil => exact ih [] _ (hr _ _ _ hs)
    | cons d ds => exact ih ds _ (hr _ _ _ (hl d s hs))

/-- With nothing drained, the records of a return are made at the ports alone (R152). -/
theorem State.handle_nil (r : CycleRecord) (cls : ReturnClass) (l : List (Port × Placement)) (s : State) :
    State.handle r cls l [] s = { s with
      ports := l.foldl (fun ps x => ps.modify x.1 fun h => h.receive r cls x.2) s.ports } := by
  induction l generalizing s with
  | nil => rfl
  | cons x l ih => exact ih _

/-- A mark moves L at most, and then to its own delay (R96). -/
theorem State.follow_cases (s : State) (r : CycleRecord) (octets : List Byte) (d : Nat) :
    s.follow r octets d = s ∨
      s.ring.drifts d = true ∧ (hopOf r octets).isSome = true ∧ s.numbers r = false ∧
        s.follow r octets d = { s with ring := { s.ring with latency := some d } } := by
  unfold State.follow
  split
  · next h =>
    simp only [Bool.and_eq_true, Bool.not_eq_true'] at h
    exact .inr ⟨h.1.1, h.1.2, h.2, rfl⟩
  · exact .inl rfl

/-- A mark accepted at once moves nothing (R96). -/
theorem State.follow_of_not_drifts {s : State} {d : Nat} (h : s.ring.drifts d = false) (r : CycleRecord)
    (octets : List Byte) : s.follow r octets d = s := by
  rcases s.follow_cases r octets d with e | ⟨h', -⟩
  · exact e
  · rw [h] at h'; cases h'

/-- The return of a NUMBER attempt moves nothing (R132, R133). -/
theorem State.follow_of_numbers {s : State} {r : CycleRecord} (h : s.numbers r = true)
    (octets : List Byte) (d : Nat) : s.follow r octets d = s := by
  rcases s.follow_cases r octets d with e | ⟨-, -, h', -⟩
  · exact e
  · rw [h] at h'; cases h'

/-- A beacon with a good header check (R96). -/
theorem goodBeacon_iff {c : List Byte} : goodBeacon c = true ↔ headerGood c = true ∧ isBeacon c = true := by
  simp [goodBeacon]

/-- What makes a mark the late mark of a cycle that a beacon concluded (R96). -/
theorem Ring.late_iff {r : Ring} {c : CycleRecord} {octets : List Byte} :
    r.late c octets = true ↔ headerGood octets = true ∧ isBeacon octets = false ∧
      countOf octets ≠ c.count ∧ countOf octets ∈ r.beaconed := by
  simp [Ring.late, and_assoc]

/-- What concludes the return of a cycle (R96). -/
theorem Ring.takes_iff {r : Ring} {c : CycleRecord} {cell : Nat} {octets : List Byte} :
    r.takes c cell octets = true ↔ goodBeacon octets = true ∨
      c.start ≤ cell ∧ r.accepts (cell - c.start) = true ∧ r.late c octets = false := by
  simp [Ring.takes, and_assoc]

/-- A good beacon concludes the return wherever it comes (R96). -/
theorem Ring.takes_beacon {r : Ring} {c : CycleRecord} {octets : List Byte} (h : goodBeacon octets = true)
    (cell : Nat) : r.takes c cell octets = true := Ring.takes_iff.mpr (.inl h)

/-- A late mark concludes nothing (R96). -/
theorem Ring.takes_late {r : Ring} {c : CycleRecord} {octets : List Byte} (h : goodBeacon octets = false)
    (late : r.late c octets = true) (cell : Nat) : r.takes c cell octets = false := by
  rw [Bool.eq_false_iff, ne_eq, Ring.takes_iff, h, late]
  simp

@[simp] theorem Ring.beaconedAfter_beacon (r : Ring) (c : CycleRecord) (o : Fin 17) :
    r.beaconedAfter c (.miss (some o)) = c.count :: r.beaconed := rfl
@[simp] theorem Ring.beaconedAfter_window (r : Ring) (c : CycleRecord) :
    r.beaconedAfter c (.miss none) = r.beaconed := rfl
@[simp] theorem Ring.beaconedAfter_good (r : Ring) (c : CycleRecord) (l : List Byte) :
    r.beaconedAfter c (.good l) = r.beaconed := rfl
@[simp] theorem Ring.beaconedAfter_damaged (r : Ring) (c : CycleRecord) (l : List Byte) :
    r.beaconedAfter c (.damaged l) = r.beaconed := rfl

/-- Every command answers a next state. -/
theorem exec_next (c : Instr) (s : State) : ∃ t, exec c s = .next t := by
  cases c
  case portEntry => simp only [exec, execPortEntry]; split <;> exact ⟨_, rfl⟩
  case nodeEntryLost => simp only [exec, execNodeEntryLost]; split <;> exact ⟨_, rfl⟩
  case nodeEntryNodeChanged => simp only [exec, execNodeEntryNodeChanged]; split <;> exact ⟨_, rfl⟩
  all_goals exact ⟨_, rfl⟩

end Sys2Proof.Machine
end

