-- ==== Sys2Proof/Laws/Line.lean ====
section
/-! SUPPORT. What the operations of the line do (Machine/Line.lean). -/

namespace Sys2Proof.Machine

@[simp] theorem flip_true (l : Bool) : flip true l = !l := by cases l <;> rfl
@[simp] theorem flip_false (l : Bool) : flip false l = l := by cases l <;> rfl

@[simp] theorem levelsOf_nil (l : Bool) : levelsOf l [] = [] := rfl
@[simp] theorem levelsOf_cons (l : Bool) (c : Cell) (cs : List Cell) :
    levelsOf l (c :: cs) =
      flip c.start l :: flip c.middle (flip c.start l) ::
        levelsOf (flip c.middle (flip c.start l)) cs := rfl

theorem levelsOf_length (l : Bool) (cs : List Cell) : (levelsOf l cs).length = 2 * cs.length := by
  induction cs generalizing l with
  | nil => rfl
  | cons c cs ih => rw [levelsOf_cons, List.length_cons, List.length_cons, ih, List.length_cons]; omega

@[simp] theorem dataCells_nil : dataCells [] = [] := rfl
@[simp] theorem dataCells_cons (b : Byte) (l : List Byte) :
    dataCells (b :: l) = (octetBits b).map dataCell ++ dataCells l := by
  simp [dataCells]
@[simp] theorem dataCells_append (a b : List Byte) : dataCells (a ++ b) = dataCells a ++ dataCells b := by
  simp [dataCells]

/-- An octet takes eight cells. -/
@[simp] theorem dataCells_length (l : List Byte) : (dataCells l).length = 8 * l.length := by
  induction l with
  | nil => rfl
  | cons b l ih =>
    rw [dataCells_cons, List.length_append, ih, List.length_map, octetBits_length, List.length_cons]
    omega

/-- The cells of a cycle are eight for each of its octets (R87). -/
theorem cycleCells_length {c : List Byte} (h : 2 ≤ c.length) : (cycleCells c).length = 8 * c.length := by
  rw [cycleCells, List.length_append, dataCells_length, List.length_drop,
    show markCells.length = 16 from rfl]
  omega

/-- A cell with a transition at its start begins no pair without one, so a receiver passes it over. -/
theorem markAt_cons {c d : Cell} (n : Nat) (rest : List Cell) (h : c.start = true) :
    markAt n (c :: d :: rest) = markAt (n + 1) (d :: rest) := by
  simp [markAt, h]

/-- The octets read from a line are as many as were asked for. -/
@[simp] theorem octetsFrom_length (n : Nat) (l : List Cell) : (octetsFrom n l).length = n := by
  induction n generalizing l with
  | zero => rfl
  | succ n ih => rw [octetsFrom, List.length_cons, ih]

end Sys2Proof.Machine
end

