-- ==== Sys2Proof/WellFormed.lean ====
section
/-! DEFINITION. Which commands are well formed: what a sender of commands can really send. -/

namespace Sys2Proof

/-- A cycle is 256 octets (R88). -/
def wholeCycle (octets : List Byte) : Bool := octets.length == 256

/-- A beacon's octets: a whole cycle of kind BEACON whose origin is a position (R88, R94, R187). -/
def beaconShape (octets : List Byte) : Bool :=
  wholeCycle octets && (octets.getD 2 0).getLsbD 7 &&
    decide (1 ≤ (octets.getD 6 0).toNat ∧ (octets.getD 6 0).toNat ≤ 15)

/-- A header code of unknown kind (R191). -/
def unknownCode (code : BitVec 4) : Bool := decide (code = 0 ∨ 9 ≤ code.toNat)

/-- A command is well formed. Every operand but these is confined by its type. -/
def Instr.wellFormed : Instr → Bool
  | .returnEvaluation _ arrival => wholeCycle arrival.octets
  | .beaconReceived octets => beaconShape octets
  | .unknownTransaction code _ _ _ => unknownCode code
  | .request _ _ _ | .fetch _ _ _ | .drain _ _ _ | .post _ _ _ | .status _ _ _ | .take _ _ _
  | .serviceDone _ _ _ | .eventset _ _ _ | .openStream | .alter | .close
  | .subscribe | .unsubscribe | .handover | .streamQuery | .occupancyQuery | .nodeQuery | .flush | .attach
  | .detach | .setQuota | .ringStart | .ringStop | .ringRestart | .setRingParameters
  | .deviceReset _ | .portEntry | .nodeEntryLost | .nodeEntryNodeChanged | .gatherCounterExpiry
  | .freeze | .reconciliation | .hubCycle | .quietCyclesEnd | .returnWindowExpiry
  | .leaseExpiry _ | .lapse _ | .powerOnReset _ _ | .pinReset _ | .nresetRelease => true

end Sys2Proof
end

