-- ==== Sys2Proof/Tests/Slice0.lean ====
section
/-! SUPPORT. Tests: the smoke tests of WellFormed, the worked examples of chapters 2, 3, 8 and 10, and for
every obligation with hypotheses a witness that meets them. Expected values are the manual's. -/

namespace Sys2Proof.Tests

open Sys2Proof Sys2Proof.Machine

set_option Elab.async false

/-! ## Small states -/

/-- A READY node of tap capacity 32 that holds an epoch. -/
def readyNode (e : Epoch) : NodeEntry :=
  { state := .ready, identity := some { cls := 1, revision := 1, serial := 7, capacity := 32 }
    held := some e, failures := 0 }

/-- The ring is RUNNING with six READY nodes, every port is ATTACHED with every kind enabled, port 0 holds
ring authority, and there is no stream. -/
def calm : State :=
  { State.reset with
    ports := Table.tabulate fun p =>
      { HostPort.reset .power (p == 0) with
        state := .attached, events := EventUnit.cleared.setEnables 0x7F }
    ring := { Ring.reset with state := .running, latency := some 300 }
    nodes :=
      { Nodes.reset with
        entries := Table.tabulate fun p => if p.val < 6 then readyNode 0 else NodeEntry.blank .absent
        count := 6 } }

/-- A state with the streams of a list, each LIVE. -/
def withLive (s : State) (l : List (StreamId × Descriptor)) : State :=
  let streams : Table Entry 48 := Table.tabulate fun id =>
    { staged := l.lookup id, outgoing := none, inForce := l.lookup id, member := false }
  { s with
    streams := streams
    plans := { s.plans with inForce := compile (streams.map Entry.inForce) s.turnover.epoch }
    mover := { s.mover with delivery := deliveryTableOf (streams.map Entry.inForce) } }

/-- A state in which a port's frame is the one that the arbiter takes next. -/
def asking (p : Port) (f : List Byte) (s : State) : State :=
  ({ s with admission := { s.admission with lastServed := p - 1 } } : State).modPort p fun h =>
    { h with requests := [f] }

/-- A state with another ring state. -/
def ringIn (st : RingState) (s : State) : State := { s with ring := { s.ring with state := st } }

/-- The state that a command leads to. -/
def after (c : Instr) (s : State) : State :=
  match exec c s with
  | .next t => t
  | .fault _ => s
  | .refused _ => s

/-- A stream: owner, source, sinks, whether the owner receives, payload, divisor, phase. -/
def stream (owner : Port) (source : Source) (sinks : List Pos) (receives : Bool)
    (payload divisor phase : Nat) : Descriptor :=
  { owner := owner, source := source, sinks := sinks, ownerReceives := receives, subscribers := []
    payload := payload, divisor := divisor, phase := phase, policy := .void }

/-! ## WellFormed -/

theorem test_wellFormed_known_code_refused : (Instr.unknownTransaction 1 0 [] true).wellFormed = false := by
  decide
theorem test_wellFormed_unknown_codes :
    (Instr.unknownTransaction 0 0 [] true).wellFormed = true ∧
      (Instr.unknownTransaction 9 0 [] true).wellFormed = true := by decide
theorem test_wellFormed_short_return_refused : (Instr.returnEvaluation 0 ⟨[0xF0], []⟩).wellFormed = false := by
  decide
theorem test_wellFormed_hub_kind_beacon_refused :
    (Instr.beaconReceived (cycleOctets false false 0 0 0 3 (zeros 16) (zeros 224))).wellFormed = false := by
  decide +kernel
theorem test_wellFormed_beacon_without_origin_refused :
    (Instr.beaconReceived (cycleOctets true false 0 0 0 0 (zeros 16) (zeros 224))).wellFormed = false := by
  decide +kernel
theorem test_wellFormed_beacon :
    (Instr.beaconReceived (cycleOctets true false 0 0 0 3 (zeros 16) (zeros 224))).wellFormed = true := by
  decide +kernel

/-! ## Worked example 2.7: layouts, an Open, occupancy -/

/-- The three streams of 2.7. -/
def layoutStreams : List (StreamId × Descriptor) :=
  [(0, stream 0 (.node 1) [4] false 4 1 0), (1, stream 1 .host [1] false 8 2 1),
    (3, stream 2 (.node 4) [1] false 16 4 2)]

/-- The ring of 2.7 before the Open. -/
def layoutState : State := withLive calm layoutStreams

/-- Port 1's Open of 2.7.2. -/
def layoutOpen : List Byte := frameOf 9 0x01 [5, 1, 10, 1, 0, 0, 1, 2]

theorem test_layout_page_2 : layoutOf layoutState.inForceView 2 =
    [{ stream := 0, offset := 0, length := 5 }, { stream := 3, offset := 5, length := 17 }] := by
  decide +kernel

theorem test_tap_counts :
    (layoutState.plans.inForce.taps.get 1).length = 14 ∧
      (layoutState.plans.inForce.taps.get 4).length = 10 ∧
      tapCount layoutState.stagedView 1 = 14 ∧ tapCount layoutState.stagedView 4 = 10 := by
  decide +kernel

theorem test_open_takes_lowest_entry :
    ((after .openStream (asking 1 layoutOpen layoutState)).port 1).responses =
      [.answer 9 0x01 (.accepted 2 1)] := by decide +kernel

theorem test_layout_after_open :
    layoutOf (after .openStream (asking 1 layoutOpen layoutState)).stagedView 2 =
      [{ stream := 0, offset := 0, length := 5 }, { stream := 2, offset := 5, length := 11 },
        { stream := 3, offset := 16, length := 17 }] := by decide +kernel

theorem test_occupancy_query :
    (((after .occupancyQuery (asking 1 (frameOf 1 0x11 [])
      (after .openStream (asking 1 layoutOpen layoutState)))).port 1).responses.map
        fun e => (e.octets.drop 5).take 10) =
      [[2, 0, 1], [56, 16, 208, 11, 25, 199, 20, 33, 191, 11]] := by decide +kernel

theorem test_freeze_marks_loads :
    ((after .freeze ({ layoutState with
      turnover := { layoutState.turnover with state := .gathering } })).turnover.work.map
        fun w => (w.position, w.mark, w.parts)) =
      [(0, .load, 1), (1, .keep, 1), (2, .load, 1), (3, .load, 1), (4, .keep, 1), (5, .load, 1)] := by
  decide +kernel

/-! ## Worked example 3.9: the last octets of page 3 -/

/-- The ring of 3.9, with ticket 41 and port 0's quota at 80. -/
def crowdedState : State :=
  let s := withLive calm
    [(0, stream 2 (.node 0) [3] false 32 1 0), (1, stream 0 (.node 1) [4] false 32 2 1),
      (2, stream 1 (.node 2) [5] false 32 2 1), (3, stream 3 (.node 3) [0] false 32 4 3),
      (4, stream 0 .host [1] false 16 8 3), (5, stream 1 .host [2] false 16 8 3),
      (6, stream 3 (.node 4) [1] false 16 8 3), (7, stream 2 (.node 5) [0] false 20 8 3)]
  { s with
    admission := { s.admission with ticket := 41, quotas := (Table.fill 56).set 0 80 } }

/-- Request A of 3.9, request B, and B with payload 2. -/
def requestA : List Byte := frameOf 1 0x01 [5, 0, 16, 4, 3, 0, 1, 6]
def requestB : List Byte := frameOf 2 0x01 [3, 1, 8, 2, 1, 0, 1, 4]
def requestB' : List Byte := frameOf 3 0x01 [3, 1, 2, 2, 1, 0, 1, 4]

/-- The state after item 1 of 3.9. -/
def crowdedAfterA : State := after .openStream (asking 0 requestA crowdedState)

theorem test_item_1 : (crowdedAfterA.port 0).responses = [.answer 1 0x01 (.accepted 8 41)] ∧
    pageTotal crowdedAfterA.stagedView 3 = 221 ∧ crowdedAfterA.admission.ticket = 42 := by
  decide +kernel

theorem test_item_2_page_full :
    ((after .openStream (asking 2 requestB crowdedAfterA)).port 2).responses =
      [.answer 2 0x01 (.refused .pageFull 3)] := by decide +kernel

theorem test_item_3_subscribe :
    ((after .subscribe (asking 1 (frameOf 4 0x04 [3]) crowdedAfterA)).port 1).responses =
      [.answer 4 0x04 (.accepted 3 42)] := by decide +kernel

theorem test_item_4_over_quota :
    ((after .openStream (asking 2 requestB' crowdedAfterA)).port 2).responses =
      [.answer 3 0x01 (.refused .overQuota 3)] := by decide +kernel

/-! ## Worked example 8.10: posts, sends and a resize -/

/-- Stream 2 of 8.10. -/
def postedStream (payload : Nat) : Descriptor :=
  { stream 1 .host [0] false payload 2 1 with policy := .again }

/-- Stream 2 in force with payload 8 at epoch 4, its buffer HELD, its counter at 4, page `k` next. -/
def postedState (b : PostBuffer) (c : CycleCount) : State :=
  let s : State := { calm with turnover := { calm.turnover with epoch := 4 } }
  let s := withLive s [(2, postedStream 8)]
  { s with
    mover := { s.mover with posts := s.mover.posts.set 2 b, sequences := s.mover.sequences.set 2 4 }
    ring := { s.ring with nextCount := c } }

/-- A sample of eight octets. -/
def sample8 (b : Byte) : List Byte := List.replicate 8 b

theorem test_post_makes_new :
    (after (.post 1 (txnBits 4 0 (2 :: sample8 0xA1)) true)
      (postedState (.held (sample8 0xA0)) 0x0601)).mover.posts.get 2 = .fresh (sample8 0xA1) := by decide +kernel

theorem test_post_of_wrong_size_raises_protocol :
    (((after (.post 1 (txnBits 4 0 (2 :: List.replicate 10 0)) true)
      (postedState .empty 0x0601)).port 1).events.kinds.get 3).pending = true := by decide +kernel

theorem test_send_fresh :
    let t := after .hubCycle (postedState (.fresh (sample8 0xA1)) 0x0601)
    (payloadOf t.ring.rgo).take 9 = slotStatus 1 5 0 :: sample8 0xA1 ∧
      t.mover.posts.get 2 = .held (sample8 0xA1) ∧ t.mover.sequences.get 2 = 5 := by decide +kernel

theorem test_send_repeated :
    let t := after .hubCycle (postedState (.held (sample8 0xA3)) 0x0605)
    (payloadOf t.ring.rgo).take 9 = slotStatus 2 4 0 :: sample8 0xA3 ∧ t.mover.sequences.get 2 = 4 := by
  decide +kernel

theorem test_switch_empties_buffer :
    let s := postedState (.held (sample8 0xA3)) 0x0608
    let view : Table Entry 48 := s.streams.modify 2 fun e => { e with outgoing := some (postedStream 10) }
    let t := after .hubCycle { s with
      streams := view
      plans := { s.plans with outgoing := some (compile (view.map Entry.outgoing) 5) }
      turnover := { s.turnover with state := .switching, target := some 5 } }
    t.mover.posts.get 2 = .empty ∧ t.mover.sequences.get 2 = 4 ∧ t.turnover.epoch = 5 := by
  decide +kernel

/-! ## Worked example 10.5: service nested two deep -/

/-- A port with some kinds pending and a service stack. -/
def servicing (pending : List EventKind) (stack : List Level) : State :=
  calm.modPort 2 fun h =>
    let h := pending.foldl HostPort.raise h
    { h with events := { h.events with stack := stack } }

theorem test_take_step_6 :
    ((after (.take 2 (txnBits 6 0 (zeros 4)) true)
      (servicing [.ringDown, .response, .delivery] [.routine])).port 2).hdo.drop 8 =
        spiBits [0, 0, 0, 2] := by
  decide +kernel

theorem test_take_step_8_service_full :
    ((after (.take 2 (txnBits 6 0 (zeros 4)) true)
      (servicing [.response, .delivery, .delivery] [.urgent, .routine])).port 2).hdo.drop 8 =
        spiBits [2, 4, 0, 2] := by
  decide +kernel

theorem test_done_step_9 :
    ((after (.serviceDone 2 (txnBits 7 0 (zeros 3)) true)
      (servicing [.response] [.urgent, .routine])).port 2).hdo.drop 8 = spiBits [0, 2, 1] := by decide +kernel

theorem test_attention_steps_5_and_9 :
    ((servicing [.ringDown, .response] [.routine]).port 2).attention = true ∧
      ((servicing [.response, .delivery] [.routine]).port 2).attention = false := by decide +kernel

/-- An item of port 0 is in processing while its lapse is due, and a REQUEST that has completed waits for it. -/
def working : State :=
  let s := calm.modPort 0 fun h =>
    { h with
      lapseDue := true
      ended :=
        [{ kind := some .request, bits := [], taken := frameOf 1 0x11 [], sending := [], removes := false }] }
  { s with admission := { s.admission with processing := some (.frame 0 (frameOf 1 0x11 [])) } }

/-- Port 0 has clocked seven bits of a REQUEST's header. -/
def midOctet : State := after (.request 0 ((txnBits 1 0 []).take 7) false) calm

/-! ## Witnesses: the step and the sound states

Each theorem shows a state and operands that meet the hypotheses of the obligation it is named after. -/

theorem witness_StepWithNoCommand :
    calm.pending = [] ∧ calm.pick = none ∧
      (asking 1 (frameOf 1 0x10 [2]) calm).pick = some (1, frameOf 1 0x10 [2]) ∧
      frameKind (frameOf 1 0x10 [2]) = some .streamQuery ∧
      (asking 1 [3, 7, 0x99] calm).pick = some (1, [3, 7, 0x99]) ∧ frameKind [3, 7, 0x99] = none := by
  decide +kernel

/-- A state with every kind of work waiting: a frame, a notice, an internal entry, a command. -/
def laden : State :=
  let s := (asking 1 (frameOf 1 0x10 [2]) layoutState).modPort 2 fun h =>
    { h with
      responses := List.replicate 8 (.notice (.settled 1 0)), requests := List.replicate 4 [3, 1, 0x11]
      events := { h.events with stack := [.urgent, .routine] } }
  { s with
    pending := [.flush]
    admission := { s.admission with internal := [.port 3, .lost 2] }
    nodes := { s.nodes with procedure := .verifying [0, 1] } }

theorem witness_QueuesStayBounded : laden.bounded ∧ ∃ t, step laden = .next t :=
  ⟨by unfold State.bounded HostPort.bounded; decide +kernel, _, rfl⟩

theorem witness_PageTotalsStayWithin : laden.pagesWithin ∧ ∃ t, step laden = .next t :=
  ⟨by unfold State.pagesWithin; decide +kernel, _, rfl⟩

theorem witness_PlansStayDerived : laden.plansMatch ∧ laden.postsFit ∧ ∃ t, step laden = .next t := by
  refine ⟨by unfold State.plansMatch; decide +kernel, fun id d x _ hx => ?_, _, rfl⟩
  have e : ∀ id, laden.mover.posts.get id = .empty := by decide +kernel
  rw [e id] at hx; exact absurd hx (by simp)

theorem witness_TurnoverOnlyWhileRunning : laden.coherent ∧ ∃ t, step laden = .next t := by
  refine ⟨⟨by decide +kernel, fun k h => ?_, fun l h => ⟨rfl, ?_⟩, fun x h _ => ?_, fun x h _ => ?_,
    by decide +kernel⟩, _, rfl⟩
  · exact absurd (show Procedure.verifying [0, 1] = .numbering k from h) (by simp)
  · cases show Procedure.verifying [0, 1] = .verifying l from h; decide
  · exact absurd (show none = some x from h) (by simp)
  · exact absurd (show none = some x from h) (by simp)

/-- A lapse is due where an item of the port is in processing, and a completed transaction waits for it. -/
theorem witness_TurnoverOnlyWhileRunning_lapse :
    (working.port 0).lapseDue = true ∧ (working.port 0).ended ≠ [] ∧
      (∀ p, (working.port p).lapseDue = true → working.processingOf p = true) ∧
      ∀ p, (working.port p).ended ≠ [] → (working.port p).lapseDue = true := by
  decide +kernel

/-- A transaction in progress has seven bits of an octet. -/
theorem witness_QueuesStayBounded_bits :
    ((midOctet.port 0).txn.map fun x => x.bits.length) = some 7 ∧ midOctet.bounded := by
  unfold State.bounded HostPort.bounded; decide +kernel

theorem witness_RangesAreKept : laden.inRange ∧ ∃ t, step laden = .next t := by
  refine ⟨⟨by unfold Ring.inRange; decide +kernel, by decide +kernel, by decide +kernel,
    by decide +kernel, by decide +kernel, by decide +kernel, 0, by decide +kernel⟩, _, rfl⟩

theorem witness_QuotasAndPlacementsAreKept :
    writesQuotas .freeze = false ∧ laden.plansMatch ∧ (∃ t, exec .freeze laden = .next t) ∧
      (∃ t, exec .hubCycle laden = .next t) ∧ mayMovePlacements .freeze = false ∧
      laden.switchDue laden.ring.nextCount = false :=
  ⟨rfl, witness_PlansStayDerived.1, ⟨_, rfl⟩, ⟨_, rfl⟩, rfl, by decide +kernel⟩

theorem witness_PlansArePackedAndTapped :
    layoutOf layoutState.inForceView 1 =
      [{ stream := 0, offset := 0, length := 5 }, { stream := 1, offset := 5, length := 9 }] ∧
    layoutState.inForceView.get 1 = some (stream 1 .host [1] false 8 2 1) ∧
    (stream 1 .host [1] false 8 2 1).present 1 = true := by decide +kernel

/-! ## Witnesses: transactions -/

/-- Port 1 is not ATTACHED. -/
def departed : State := calm.modPort 1 fun h => { h with state := .lapsed }

/-- Every port of the calm state listens. -/
theorem witness_listens : ∀ p, calm.listens p := by unfold State.listens; decide +kernel

theorem witness_RequestQueuesFrame :
    calm.listens 0 ∧ (frameOf 1 0x11 []).head? = some (octet (frameOf 1 0x11 []).length) ∧
      [4, 1, 0x11].head? ≠ some (octet [4, 1, (0x11 : Byte)].length) :=
  ⟨witness_listens 0, by decide, by decide⟩

/-- Port 0 with a response entry of seven octets and records of eight and of six. -/
def queued : State :=
  calm.modPort 0 fun h =>
    { h with
      responses := [.answer 1 0x10 (.refused .badArgument 0)]
      delivery :=
        [{ stream := 0, validity := .fresh, sequence := 1, cycle := 2, gap := 0, payload := [5, 6] },
          { stream := 0, validity := .damaged, sequence := 0, cycle := 3, gap := 1, payload := [] }] }

/-- Port 0 is in a DRAIN that has sent a whole item. -/
def draining : State :=
  queued.modPort 0 fun h => { h with txn := some (Txn.start .drain [] false) }

theorem witness_FetchSendsHeadEntry :
    queued.listens 0 ∧ (calm.port 0).responses = [] ∧
      (queued.port 0).responses.map (fun e => e.octets.length) = [7] := by
  unfold State.listens; decide +kernel

theorem witness_DrainSendsRecord :
    queued.listens 0 ∧ (queued.port 0).delivery.map Record.size = [8, 6] ∧
      (calm.port 0).delivery = [] ∧
      (draining.nresetLow = false ∧ (draining.port 0).heldOver = false ∧
        (draining.port 0).lapseDue = false ∧
        (draining.port 0).txn = some (Txn.start .drain [] false) ∧
        (draining.port 0).delivery.map Record.size = [8, 6]) := by
  unfold State.listens; decide +kernel

/-- Two whole records and a marker in one DRAIN (R157). -/
theorem test_drain_goes_on :
    let t := after (.drain 0 (txnBits 3 0 (zeros 20)) true) queued
    (t.port 0).hdo.drop 8 =
        spiBits ([0, 0x11, 0, 2, 0, 2, 5, 6] ++ [0, 0x40, 0, 3, 1, 0] ++ [0xFF, 0, 0, 0, 0, 0]) ∧
      (t.port 0).delivery = [] := by decide +kernel

theorem witness_PostFillsBuffer :
    let s := postedState .empty 0x0601
    departed.listens 1 ∧ (departed.port 1).attached = false ∧ s.listens 1 ∧ (s.port 1).attached = true ∧
      (s.entry 2).inForce = some (postedStream 8) ∧
      (postedStream 8).source = .host ∧ (postedStream 8).owner = 1 ∧
      (sample8 0).length = (postedStream 8).payload ∧ [(0 : Byte)].length ≠ (postedStream 8).payload := by
  unfold State.listens; decide +kernel

/-- Port 0 in the middle of a header: the seven bits before the last of a FETCH's, with a response entry that
came after select was asserted. -/
def midHeader : State :=
  (after (.fetch 0 ((txnBits 2 0 []).take 7) false) calm).modPort 0 fun h =>
    { h with responses := [.notice (.settled 1 0)] }

theorem witness_StatusAndUnknownKind :
    calm.listens 3 ∧ 21 ≤ (zeros 21).length ∧ ((0 : BitVec 4) = 0 ∨ 9 ≤ (0 : BitVec 4).toNat) ∧
      ((9 : BitVec 4) = 0 ∨ 9 ≤ (9 : BitVec 4).toNat) ∧
      ([] : List Bool).length < 8 ∧ ((txnBits 6 0 []).take 7).length < 8 :=
  ⟨witness_listens 3, by decide, by decide, by decide, by decide, by decide⟩

/-- Another event falls between the assertion of select and the eighth clock (R163). -/
theorem witness_StatusAndUnknownKind_split :
    calm.listens 0 ∧ 7 + 1 = 8 ∧ bitsOf .fetch ((txnBits 2 0 []).take 7 ++ [false]) ∧
      midHeader.nresetLow = false ∧ (midHeader.port 0).heldOver = false ∧
      (midHeader.port 0).lapseDue = false ∧ (midHeader.port 0).responses ≠ (calm.port 0).responses := by
  unfold State.listens bitsOf; decide +kernel

/-- The status octet of such a header shows no response, and the FETCH sends the entry: the octet is of the
assertion of select, and the entry of the header's end (R163, R167). -/
theorem test_status_of_select :
    ((after (.fetch 0 (false :: spiBits (zeros 6)) true) midHeader).port 0).hdo =
        spiBits [0x06, 6, 2, 1, 0, 1, 0] := by decide +kernel

/-- The codes of R191 in a header's first four bits, with whatever the last four are; fewer than eight bits name
nothing. -/
theorem test_headers :
    selectPeriod 2 [false, false, false, true, false, true, false, true] true =
        some (.request 2 [false, false, false, true, false, true, false, true] true) ∧
      headerKind 0x15 = .request ∧ headerKind 0x20 = .fetch ∧ headerKind 0x31 = .drain ∧
      headerKind 0x4F = .post ∧ headerKind 0x50 = .status ∧ headerKind 0x66 = .take ∧
      headerKind 0x70 = .serviceDone ∧ headerKind 0x8F = .eventset ∧ headerKind 0x9A = .unknown ∧
      headerKind 0x01 = .unknown ∧
      selectPeriod 2 [true, false, false, true, false, true, false, true] false =
        some (.unknownTransaction 9 2 [true, false, false, true, false, true, false, true] false) ∧
      selectPeriod 2 [false, false, false, true, false, true, false] true = none := by decide

/-- A select period of six clocks sends six bits of the status octet and leaves nothing behind (R162). -/
theorem test_empty_transaction :
    (after (.unknownTransaction 9 0 [true, true, true, true, true, true] true) calm).port 0 =
      { calm.port 0 with hdo := [false, false, false, false, false, true] } := by decide +kernel

theorem witness_TakeHandsOutEvent :
    calm.listens 2 ∧ (∀ k, (calm.port 2).events.counts k = false) ∧
    (∀ stack ∈ [[Level.routine], [.urgent, .routine]],
      let s := servicing [.ringDown, .response] stack
      s.listens 2 ∧ (s.port 2).events.counts 0 = true ∧
      (∀ j, (s.port 2).events.counts j = true → ((s.port 2).events.kinds.get j).level = .urgent →
        ((s.port 2).events.kinds.get 0).level = .urgent ∧ 0 ≤ j) ∧
      (∀ j, (s.port 2).events.counts j = true →
        ((s.port 2).events.kinds.get 0).level = .routine → 0 ≤ j)) := by
  unfold State.listens; decide +kernel

theorem witness_DoneEndsService :
    calm.listens 2 ∧ (calm.port 2).events.stack = [] ∧
      (servicing [] [.urgent, .routine]).listens 2 ∧
      ((servicing [] [.urgent, .routine]).port 2).events.stack = [.urgent, .routine] := by
  unfold State.listens; decide +kernel

theorem witness_EventsetWritesSettings :
    departed.listens 1 ∧ (departed.port 1).attached = false ∧ calm.listens 2 ∧
      (calm.port 2).attached = true ∧ (0x7F : Byte).getLsbD 7 = false ∧
      ([1, 4096].all fun n => decide (1 ≤ n ∧ n ≤ 4096)) = true ∧
      256 * numAt (0 :: 0 :: octetsNat 4097) 2 + numAt (0 :: 0 :: octetsNat 4097) 3 = 4097 ∧
      256 * numAt [0, 0, 0, 0] 2 + numAt [0, 0, 0, 0] 3 = 0 := by
  unfold State.listens; decide +kernel

theorem witness_TransactionsMayBeCut :
    queued.listens 0 ∧ (1 : Port) ≠ 0 ∧
      (∀ n ∈ [0, 3, 8, 11], bitsOf .fetch ((txnBits 2 5 (zeros 3)).take n ++ (txnBits 2 5 (zeros 3)).drop n)) ∧
      headerKind 0x25 = .fetch ∧ [true, false].length < 8 ∧
      (∃ t, exec (TxnKind.fetch.command 0 0 ((txnBits 2 5 (zeros 3)).take 11) false) queued = .next t) ∧
      ∃ t, exec (TxnKind.fetch.command 0 0 (spiBits (0x25 :: zeros 3)) true) queued = .next t :=
  ⟨witness_FetchSendsHeadEntry.1, by decide, by unfold bitsOf; decide, by decide, by decide, ⟨_, rfl⟩, _, rfl⟩

/-- HDO is high impedance at a released select. At an asserted one it changes on the falling edge: after thirteen
clocks of a FETCH, the length octet 7 of its entry shows its fifth bit while HCLK is high and its sixth once it is
low; in mode 0 the assertion of select itself puts the first bit of the status octet on it (R162, R186). -/
theorem test_hdo_pin :
    let pinAfter (n : Nat) (release clock : Bool) : Option Bool :=
      (after (.fetch 0 ((txnBits 2 0 (zeros 3)).take n) release) queued).hdoPin 0 clock
    (∀ clock, queued.hdoPin 0 clock = none ∧ pinAfter 13 true clock = none) ∧
      pinAfter 13 false true = some false ∧ pinAfter 13 false false = some true ∧
      pinAfter 14 false true = some true ∧
      pinAfter 0 false SpiMode.mode0.idle = some ((queued.port 0).statusOctet queued.running).msb ∧
      pinAfter 16 false SpiMode.mode3.idle = some true ∧ pinAfter 16 false SpiMode.mode0.idle = some false := by
  decide +kernel

/-- A REQUEST whose last octet the release cuts off queues the whole octets alone (R162). -/
theorem test_cut_octet :
    ((after (.request 0 (txnBits 1 0 (frameOf 1 0x11 []) ++ [true, true]) true) calm).port 0).requests =
      [frameOf 1 0x11 []] := by decide +kernel

theorem witness_ResetVoidsTransaction :
    let s := after (.fetch 0 (txnBits 2 0 (zeros 3)) false) queued
    ((s.port 0).txn ≠ none ∧ (∃ t, exec (.powerOnReset 1 false) s = .next t) ∧
      (∃ t, exec (.pinReset 1) s = .next t)) ∧
    ((after (.pinReset 1) s).port 0).heldOver = true ∧
    ((after (.pinReset 1) s).nresetLow = true ∧ ((after (.pinReset 1) s).port 1).heldOver = false) ∧
    let u := asking 0 (frameOf 1 0x35 []) (after (.fetch 1 [true, false, true] false) calm)
    u.pick = some (0, frameOf 1 0x35 []) ∧ (u.port 0).attached = true ∧ (u.port 0).authority = true ∧
      (u.port 1).txn ≠ none :=
  ⟨⟨by decide +kernel, ⟨_, rfl⟩, ⟨_, rfl⟩⟩, by decide +kernel, by decide +kernel, by decide +kernel⟩

/-! ## Witnesses: items -/

theorem witness_ArbiterIsRoundRobin :
    (asking 1 [3, 1, 0x11] calm).pick = some (1, [3, 1, 0x11]) ∧
      (asking 1 [3, 1, 0x11] (calm.modPort 1 fun h =>
        { h with responses := List.replicate 8 (.notice (.settled 1 0)) })).pick = none := by
  decide +kernel

theorem witness_ChecksRefuseInOrder :
    (asking 1 (frameOf 1 0x03 [2]) departed).pick = some (1, frameOf 1 0x03 [2]) ∧
      frameKind (frameOf 1 0x03 [2]) = some .close ∧
      ((asking 1 (frameOf 1 0x03 [2]) departed).port 1).attached = false ∧
      (asking 1 (frameOf 1 0x20 [0]) departed).pick = some (1, frameOf 1 0x20 [0]) ∧
      frameKind (frameOf 1 0x20 [0]) = some .attach ∧
      (frameOf 1 0x20 [0]).length ≠ frameLength .attach (frameOf 1 0x20 [0]) := by decide +kernel

/-- The ring-level frames with their kinds, at boundary values of their parameters. -/
def ringLevelFrames : List (List Byte) :=
  [frameOf 1 0x31 [], frameOf 1 0x32 [], frameOf 1 0x33 [], frameOf 1 0x35 [], frameOf 1 0x30 [3, 224],
    frameOf 1 0x34 [2, 8, 16, 7, 255], frameOf 1 0x34 [0, 1, 1, 0, 0]]

theorem witness_ChecksRefuseInOrder_authority : ∀ f ∈ ringLevelFrames,
    let s := asking 1 f calm
    s.pick = some (1, f) ∧ (s.port 1).attached = true ∧ (s.port 1).authority = false := by decide +kernel

/-- Frames of requests that are no edits, each with one parameter just out of its range. -/
def outOfRangeFrames : List (RequestKind × List Byte) :=
  [(.streamQuery, frameOf 1 0x10 [48]), (.nodeQuery, frameOf 1 0x12 [0]), (.nodeQuery, frameOf 1 0x12 [16]),
    (.attach, frameOf 1 0x20 [0, 0x80]), (.setQuota, frameOf 1 0x30 [4, 0]),
    (.setQuota, frameOf 1 0x30 [0, 225]), (.setRingParameters, frameOf 1 0x34 [3, 1, 1, 0, 0]),
    (.setRingParameters, frameOf 1 0x34 [0, 0, 1, 0, 0]), (.setRingParameters, frameOf 1 0x34 [0, 9, 1, 0, 0]),
    (.setRingParameters, frameOf 1 0x34 [0, 1, 0, 0, 0]), (.setRingParameters, frameOf 1 0x34 [0, 1, 17, 0, 0]),
    (.setRingParameters, frameOf 1 0x34 [0, 1, 1, 8, 0])]

theorem witness_ChecksRefuseInOrder_ranges : ∀ x ∈ outOfRangeFrames,
    (asking 1 x.2 calm).pick = some (1, x.2) ∧ ((asking 1 x.2 calm).port 1).attached = true := by
  decide +kernel

/-- The three ring requests of the authority port, each in ring states that do not allow it. -/
def disallowed : List (RequestKind × List Byte × RingState) :=
  [(.ringStart, frameOf 1 0x31 [], .quieting), (.ringStart, frameOf 1 0x31 [], .halted),
    (.ringStop, frameOf 1 0x32 [], .off), (.ringRestart, frameOf 1 0x33 [], .off),
    (.ringRestart, frameOf 1 0x33 [], .quieting), (.ringRestart, frameOf 1 0x33 [], .numbering),
    (.ringRestart, frameOf 1 0x33 [], .identifying)]

theorem witness_ChecksRefuseInOrder_ring : ∀ x ∈ disallowed,
    let s := ringIn x.2.2 (asking 0 x.2.1 calm)
    s.pick = some (0, x.2.1) ∧ (s.port 0).attached = true ∧ (s.port 0).authority = true ∧
      s.ring.state = x.2.2 := by decide +kernel

/-- The one response of a port after a command is REFUSED with a reason and a detail. -/
def refusedWith (c : Instr) (s : State) (p : Port) (r : Reason) (detail : Nat) : Prop :=
  ((after c s).port p).responses.map (fun e => (e.octets.drop 5).take 2) = [[octet r.code, octet detail]]

theorem test_refusals_of_steps_3_and_5 :
    (∀ x ∈ outOfRangeFrames, refusedWith (requestCommand 0 x.1) (asking 1 x.2 calm) 1 .badArgument 0) ∧
      ∀ x ∈ disallowed,
        refusedWith (requestCommand 0 x.1) (ringIn x.2.2 (asking 0 x.2.1 calm)) 0 .ringState 0 := by
  unfold refusedWith; decide +kernel

/-! ## Witnesses: edits -/

/-- The descriptor of the Open of 2.7.2. -/
def layoutOpened : Descriptor := stream 1 (.node 4) [1] true 10 1 0

theorem witness_OpenIsJudged :
    let s := asking 1 layoutOpen layoutState
    let v := s.stagedView.set 2 (some layoutOpened)
    layoutOpen = frameOf 9 0x01 (octet (Source.node 4).code :: fieldOctets true 10 1 0 .void [1]) ∧
    s.pick = some (1, layoutOpen) ∧ (s.port 1).attached = true ∧ fieldsInRange 10 1 0 [1] ∧
    (4 : Pos) ∉ [(1 : Pos)] ∧ s.ring.state = .running ∧
    (∀ q, layoutOpened.names q = true → (s.node q).state = .ready) ∧
    (s.entry 2).isFree = true ∧ (∀ j, j < 2 → (s.entry j).isFree = false) ∧ s.fits v 1 layoutOpened ∧
    (ringIn .halted s).pick = some (1, layoutOpen) := by
  unfold fieldsInRange State.fits; decide +kernel

/-- Octets of an Open, each with one range fault or one disagreement of R49. -/
def badOpens : List (List Byte) :=
  [16 :: rawFields 1 1 1 0 0 [1], 2 :: rawFields 2 1 1 0 0 [1], 2 :: rawFields 0 1 1 0 2 [1],
    2 :: rawFields 0 0 1 0 0 [1], 2 :: rawFields 0 33 1 0 0 [1], 2 :: rawFields 0 1 3 0 0 [1],
    2 :: rawFields 0 1 8 8 0 [1], 2 :: rawFields 0 1 1 0 0 [1, 3, 4, 5, 6], 2 :: rawFields 0 1 1 0 0 [1, 1],
    2 :: rawFields 0 1 1 0 0 [0], 2 :: rawFields 0 1 1 0 0 [16], 2 :: rawFields 0 1 1 0 0 [2],
    0 :: rawFields 0 1 1 0 0 [], 0 :: rawFields 1 1 1 0 0 [1], 2 :: rawFields 0 1 1 0 0 []]

theorem witness_OpenIsJudged_bad : ∀ l ∈ badOpens,
    let s := asking 1 (frameOf 1 0x01 l) calm
    s.pick = some (1, frameOf 1 0x01 l) ∧ (s.port 1).attached = true := by decide +kernel

/-- Node 2 is STALE, or has a capacity of the 14 taps that the streams of 2.7 take there. -/
def withNode2 (e : NodeEntry) : State :=
  { layoutState with nodes := { layoutState.nodes with entries := layoutState.nodes.entries.set 1 e } }
def staleNode2 : State := withNode2 { readyNode 0 with state := .stale }
def fullNode2 : State :=
  withNode2 { readyNode 0 with identity := some { cls := 1, revision := 1, serial := 7, capacity := 14 } }

/-- All 48 entries hold a stream. -/
def fullTable : State := withLive calm (allStreams.map fun id => (id, stream 0 (.node 0) [1] false 1 8 0))

theorem witness_OpenIsJudged_refused :
    (let s := asking 1 layoutOpen staleNode2
    s.pick = some (1, layoutOpen) ∧ s.unreadyAt layoutOpened 1) ∧
    (let s := asking 1 layoutOpen fullTable
    s.pick = some (1, layoutOpen) ∧ (∀ q, layoutOpened.names q = true → (s.node q).state = .ready) ∧
      ∀ j, (s.entry j).isFree = false) ∧
    (let s := asking 1 layoutOpen { layoutState with
        admission := { layoutState.admission with quotas := Table.fill 19 } }
    s.pick = some (1, layoutOpen) ∧
      s.exceeds (s.stagedView.set 2 (some layoutOpened)) 1 layoutOpened .overQuota 1) ∧
    let s := asking 1 layoutOpen fullNode2
    s.pick = some (1, layoutOpen) ∧ (∀ q, layoutOpened.names q = true → (s.node q).state = .ready) ∧
      s.exceeds (s.stagedView.set 2 (some layoutOpened)) 1 layoutOpened .tapsExhausted (posNum 1) := by
  unfold State.unreadyAt State.exceeds State.overQuotaAt
  refine ⟨?_, ?_, ?_, ?_⟩ <;> decide +kernel

theorem test_open_refusals :
    (∀ l ∈ badOpens, refusedWith .openStream (asking 1 (frameOf 1 0x01 l) calm) 1 .badArgument 0) ∧
      refusedWith .openStream (ringIn .halted (asking 1 layoutOpen layoutState)) 1 .ringState 0 ∧
      refusedWith .openStream (asking 1 layoutOpen staleNode2) 1 .nodeUnavailable 2 ∧
      refusedWith .openStream (asking 1 layoutOpen fullTable) 1 .noFreeEntry 0 ∧
      refusedWith .openStream (asking 1 layoutOpen fullNode2) 1 .tapsExhausted 2 := by
  unfold refusedWith; decide +kernel

theorem witness_OpenIsJudged_host :
    let d := stream 1 .host [0] false 1 1 0
    let f := frameOf 1 0x01 (octet Source.host.code :: fieldOctets false 1 1 0 .void [0])
    let s := ringIn .broken (asking 1 f calm)
    s.pick = some (1, f) ∧ fieldsInRange 1 1 0 [0] ∧ s.ring.state = .broken ∧
    (∀ q, d.names q = true → (s.node q).state = .ready) ∧ (s.entry 0).isFree = true ∧
    s.fits (s.stagedView.set 0 (some d)) 1 d := by
  unfold fieldsInRange State.fits; decide +kernel

/-- The state after item 1 of 3.9, with its entries written out as the example leaves them. -/
def fullPage3 : State :=
  let s := withLive calm
    [(0, stream 2 (.node 0) [3] false 32 1 0), (1, stream 0 (.node 1) [4] false 32 1 0),
      (2, stream 1 (.node 2) [5] false 32 1 0), (3, stream 3 (.node 3) [0] false 32 1 0),
      (4, stream 0 .host [1] false 32 1 0), (5, stream 1 .host [2] false 32 1 0)]
  s

theorem witness_OpenIsJudged_page_full :
    let d := stream 1 .host [0] false 32 8 3
    let f := frameOf 1 0x01 (octet Source.host.code :: fieldOctets false 32 8 3 .void [0])
    let s := asking 1 f fullPage3
    s.pick = some (1, f) ∧ (s.port 1).attached = true ∧ fieldsInRange 32 8 3 [0] ∧
    s.ring.state = .running ∧ (∀ q, d.names q = true → (s.node q).state = .ready) ∧
    (s.entry 6).isFree = true ∧ (∀ j, j < 6 → (s.entry j).isFree = false) ∧
    s.exceeds (s.stagedView.set 6 (some d)) 1 d .pageFull 3 := by
  unfold fieldsInRange State.exceeds State.overQuotaAt; decide +kernel

theorem witness_AlterIsJudged :
    let old := stream 2 (.node 4) [1] false 16 4 2
    let d := stream 2 (.node 4) [0] true 32 8 7
    let f := frameOf 1 0x02 (octet 3 :: fieldOctets true 32 8 7 .again [0])
    let s := asking 2 f layoutState
    d = { old with sinks := sortPositions [0], ownerReceives := true, payload := 32, divisor := 8, phase := 7 } ∧
    s.pick = some (2, f) ∧ (s.port 2).attached = true ∧ fieldsInRange 32 8 7 [0] ∧
    s.ring.state = .running ∧ (s.entry 3).staged = some old ∧ old.owner = 2 ∧ (4 : Pos) ∉ [(0 : Pos)] ∧
    (∀ q, d.names q = true → (s.node q).state = .ready) ∧ s.fits (s.stagedView.set 3 (some d)) 2 d := by
  unfold fieldsInRange State.fits; decide +kernel

/-- An Alter of stream 3 of 2.7, from sink 2 to the sinks given. -/
def alterFrame (id : Byte) (receives : Bool) (sinks : List Pos) : List Byte :=
  frameOf 1 0x02 (id :: fieldOctets receives 32 8 7 .again sinks)

/-- The stream that it would leave. -/
def alteredTo (sinks : List Pos) : Descriptor := stream 2 (.node 4) sinks true 32 8 7

theorem witness_AlterIsJudged_refused :
    (asking 2 (frameOf 1 0x02 (48 :: rawFields 0 1 1 0 0 [1])) layoutState).pick =
      some (2, frameOf 1 0x02 (48 :: rawFields 0 1 1 0 0 [1])) ∧
    (asking 2 (frameOf 1 0x02 (3 :: rawFields 0 33 1 0 0 [1])) layoutState).pick =
      some (2, frameOf 1 0x02 (3 :: rawFields 0 33 1 0 0 [1])) ∧
    (ringIn .identifying (asking 2 (alterFrame 3 true [0]) layoutState)).pick =
      some (2, alterFrame 3 true [0]) ∧
    (asking 2 (alterFrame 2 true [0]) layoutState).pick = some (2, alterFrame 2 true [0]) ∧
    (layoutState.entry 2).staged = none ∧
    (asking 1 (alterFrame 3 true [0]) layoutState).pick = some (1, alterFrame 3 true [0]) ∧
    (asking 2 (alterFrame 3 false []) layoutState).pick = some (2, alterFrame 3 false []) ∧
    (asking 2 (alterFrame 3 true [4]) layoutState).pick = some (2, alterFrame 3 true [4]) ∧
    (let s := asking 2 (alterFrame 3 true [1]) staleNode2
    s.pick = some (2, alterFrame 3 true [1]) ∧ s.unreadyAt (alteredTo [1]) 1) ∧
    (let s := asking 2 (alterFrame 3 true [0]) { layoutState with
        admission := { layoutState.admission with quotas := Table.fill 32 } }
    s.pick = some (2, alterFrame 3 true [0]) ∧
      s.exceeds (s.stagedView.set 3 (some (alteredTo [0]))) 2 (alteredTo [0]) .overQuota 7) := by
  unfold State.unreadyAt State.exceeds State.overQuotaAt
  refine ⟨?_, ?_, ?_, ?_, ?_, ?_, ?_, ?_, ?_, ?_⟩ <;> decide +kernel

theorem test_alter_refusals :
    refusedWith .alter (asking 2 (frameOf 1 0x02 (48 :: rawFields 0 1 1 0 0 [1])) layoutState) 2
      .badArgument 0 ∧
    refusedWith .alter (ringIn .identifying (asking 2 (alterFrame 3 true [0]) layoutState)) 2 .ringState 0 ∧
    refusedWith .alter (asking 2 (alterFrame 2 true [0]) layoutState) 2 .noSuchStream 0 ∧
    refusedWith .alter (asking 1 (alterFrame 3 true [0]) layoutState) 1 .notOwner 0 ∧
    refusedWith .alter (asking 2 (alterFrame 3 false []) layoutState) 2 .badArgument 0 ∧
    refusedWith .alter (asking 2 (alterFrame 3 true [1]) staleNode2) 2 .nodeUnavailable 2 := by
  unfold refusedWith; decide +kernel

/-- A stream of port 0 with port 2 and port 3 as subscribers. -/
def shared : Descriptor := { stream 0 (.node 1) [] true 4 1 0 with subscribers := [2, 3] }

/-- The stream with two subscribers, as stream 0. -/
def sharedState : State := withLive calm [(0, shared)]

theorem witness_CloseIsJudged :
    let s := asking 0 (frameOf 1 0x03 [octet 0]) sharedState
    s.pick = some (0, frameOf 1 0x03 [octet 0]) ∧ (s.port 0).attached = true ∧
      s.ring.state ≠ .quieting ∧ s.ring.state ≠ .off ∧ (s.entry 0).staged = some shared ∧
      shared.owner = 0 ∧ shared.subscribers.Nodup ∧ (0 : Port) ∉ shared.subscribers ∧
      ((ringIn .quieting s).pick = some (0, frameOf 1 0x03 [octet 0])) ∧
      ((ringIn .off s).pick = some (0, frameOf 1 0x03 [octet 0])) ∧
      (asking 0 (frameOf 1 0x03 [48]) sharedState).pick = some (0, frameOf 1 0x03 [48]) ∧
      (asking 0 (frameOf 1 0x03 [octet 47]) sharedState).pick = some (0, frameOf 1 0x03 [octet 47]) ∧
      (sharedState.entry 47).staged = none ∧
      (asking 1 (frameOf 1 0x03 [octet 0]) sharedState).pick = some (1, frameOf 1 0x03 [octet 0]) ∧
      shared.owner ≠ 1 := by decide +kernel

theorem test_close_refusals :
    refusedWith .close (ringIn .quieting (asking 0 (frameOf 1 0x03 [0]) sharedState)) 0 .ringState 0 ∧
    refusedWith .close (asking 0 (frameOf 1 0x03 [48]) sharedState) 0 .badArgument 0 ∧
    refusedWith .close (asking 0 (frameOf 1 0x03 [47]) sharedState) 0 .noSuchStream 0 ∧
    refusedWith .close (asking 2 (frameOf 1 0x03 [0]) sharedState) 2 .notOwner 0 := by
  unfold refusedWith; decide +kernel

theorem witness_SubscriptionsAreJudged :
    let s := asking 1 (frameOf 1 0x04 [octet 0]) sharedState
    let t := ringIn .halted (asking 2 (frameOf 1 0x05 [octet 0]) sharedState)
    s.pick = some (1, frameOf 1 0x04 [octet 0]) ∧ (s.port 1).attached = true ∧
      s.ring.state = .running ∧ (s.entry 0).staged = some shared ∧ shared.owner ≠ 1 ∧
      1 ∉ shared.subscribers ∧ shared.source = .node 1 ∧ shared.subscribers.length < 3 ∧
    t.pick = some (2, frameOf 1 0x05 [octet 0]) ∧ (t.port 2).attached = true ∧
      t.ring.state ≠ .quieting ∧ t.ring.state ≠ .off ∧ (t.entry 0).staged = some shared ∧
      shared.subscribers = [] ++ 2 :: [3] := by decide +kernel

/-- Stream 0 is HOST-sourced, or has three subscribers. -/
def hostShared : State := withLive calm [(0, stream 0 .host [1] false 4 1 0)]
def crowded : State := withLive calm [(0, { shared with subscribers := [1, 2, 3], owner := 0 })]

theorem witness_SubscriptionsAreJudged_refused :
    (∀ x ∈ [(1, (48 : Byte), sharedState), (1, 0, ringIn .halted sharedState), (1, 47, sharedState),
        (0, 0, sharedState), (2, 0, sharedState), (1, 0, hostShared)],
      (asking x.1 (frameOf 1 0x04 [x.2.1]) x.2.2).pick = some (x.1, frameOf 1 0x04 [x.2.1])) ∧
    (∀ x ∈ [(1, (48 : Byte), sharedState), (2, 0, ringIn .off sharedState), (1, 47, sharedState),
        (0, 0, sharedState), (1, 0, sharedState)],
      (asking x.1 (frameOf 1 0x05 [x.2.1]) x.2.2).pick = some (x.1, frameOf 1 0x05 [x.2.1])) ∧
    (∀ p, (sharedState.port p).attached = true) ∧ (sharedState.entry 47).staged = none ∧
    (hostShared.entry 0).staged = some (stream 0 .host [1] false 4 1 0) ∧
    (0 : Port) ∉ shared.subscribers ∧ (1 : Port) ∉ shared.subscribers := by decide +kernel

theorem test_subscription_refusals :
    refusedWith .subscribe (ringIn .halted (asking 1 (frameOf 1 0x04 [0]) sharedState)) 1 .ringState 0 ∧
    refusedWith .subscribe (asking 1 (frameOf 1 0x04 [47]) sharedState) 1 .noSuchStream 0 ∧
    refusedWith .subscribe (asking 0 (frameOf 1 0x04 [0]) sharedState) 0 .already 0 ∧
    refusedWith .subscribe (asking 2 (frameOf 1 0x04 [0]) crowded) 2 .already 0 ∧
    refusedWith .subscribe (asking 1 (frameOf 1 0x04 [0]) hostShared) 1 .badArgument 0 ∧
    refusedWith .unsubscribe (asking 0 (frameOf 1 0x05 [0]) sharedState) 0 .notSubscriber 0 := by
  unfold refusedWith; decide +kernel

theorem witness_HandoverIsJudged :
    let f := frameOf 1 0x06 [octet 0, octet 3]
    let s := asking 0 f sharedState
    let d := { shared with owner := 3, ownerReceives := true, subscribers := [2] ++ [] }
    s.pick = some (0, f) ∧ (s.port 0).attached = true ∧ s.ring.state = .running ∧
      (s.entry 0).staged = some shared ∧ shared.owner = 0 ∧ shared.subscribers = [2] ++ 3 :: [] ∧
      (3 : Port) ∉ [(2 : Port)] ∧
      ∀ k, usage (s.stagedView.set 0 (some d)) 3 k ≤ s.admission.quotas.get 3 := by decide +kernel

/-- Every quota is 4, one octet short of the stream's slot. -/
def narrow : State :=
  { sharedState with admission := { sharedState.admission with quotas := Table.fill 4 } }

theorem witness_HandoverIsJudged_refused :
    let d := { shared with owner := 3, ownerReceives := true, subscribers := [2] ++ [] }
    (∀ x ∈ [(0, (48 : Byte), (3 : Byte), sharedState), (0, 0, 4, sharedState),
        (0, 0, 3, ringIn .quieting sharedState), (0, 47, 3, sharedState), (2, 0, 3, sharedState),
        (0, 0, 1, sharedState), (0, 0, 3, narrow)],
      (asking x.1 (frameOf 1 0x06 [x.2.1, x.2.2.1]) x.2.2.2).pick =
        some (x.1, frameOf 1 0x06 [x.2.1, x.2.2.1])) ∧
    narrow.overQuotaAt (narrow.stagedView.set 0 (some d)) 3 0 ∧ shared.owner ≠ 2 := by
  unfold State.overQuotaAt; decide +kernel

theorem test_handover_refusals :
    refusedWith .handover (asking 0 (frameOf 1 0x06 [0, 4]) sharedState) 0 .badArgument 0 ∧
    refusedWith .handover (asking 2 (frameOf 1 0x06 [0, 3]) sharedState) 2 .notOwner 0 ∧
    refusedWith .handover (asking 0 (frameOf 1 0x06 [0, 0]) sharedState) 0 .notSubscriber 0 ∧
    refusedWith .handover (asking 0 (frameOf 1 0x06 [0, 3]) narrow) 0 .overQuota 0 := by
  unfold refusedWith; decide +kernel

/-! ## Witnesses: queries, Flush, sessions, quotas, the ring -/

/-- A port's frame is next and the port is ATTACHED. -/
def ready' (p : Port) (f : List Byte) (s : State) : Bool :=
  decide (s.pick = some (p, f)) && (s.port p).attached

theorem witness_QueriesAnswerTables :
    ready' 1 (frameOf 1 0x10 [octet 47]) (asking 1 (frameOf 1 0x10 [octet 47]) sharedState) = true ∧
      ready' 1 (frameOf 1 0x12 [octet 15]) (asking 1 (frameOf 1 0x12 [octet 15]) sharedState) = true ∧
      (sharedState.node 14).identity = none ∧
      ready' 1 (frameOf 1 0x11 []) (asking 1 (frameOf 1 0x11 []) sharedState) = true := by
  decide +kernel

theorem witness_AttachBeginsSession :
    (asking 1 (frameOf 1 0x20 [255, 0x7F]) departed).pick = some (1, frameOf 1 0x20 [255, 0x7F]) ∧
      (0x7F : Byte).getLsbD 7 = false := by decide +kernel

theorem witness_DetachEndsSession :
    ready' 0 (frameOf 1 0x21 []) (asking 0 (frameOf 1 0x21 []) sharedState) = true := by decide +kernel

theorem witness_QuotaAndParametersAreSet :
    (calm.port 0).authority = true ∧
      ready' 0 (frameOf 1 0x30 [octet 3, octet 224]) (asking 0 (frameOf 1 0x30 [octet 3, octet 224]) calm)
        = true ∧
      ready' 0 (frameOf 1 0x34 [octet CycleRate.r8000.code, octet 8, octet 16, octet 7, octet 255])
        (asking 0 (frameOf 1 0x34 [octet CycleRate.r8000.code, octet 8, octet 16, octet 7, octet 255]) calm)
        = true ∧
      ready' 0 (frameOf 1 0x34 [octet CycleRate.r4000.code, octet 1, octet 1, octet 0, octet 0])
        (asking 0 (frameOf 1 0x34 [octet CycleRate.r4000.code, octet 1, octet 1, octet 0, octet 0]) calm)
        = true := by decide +kernel

theorem witness_RingStartQuietsRing :
    let s := ringIn .off (asking 0 (frameOf 1 0x31 []) calm)
    ready' 0 (frameOf 1 0x31 []) s = true ∧ (s.port 0).authority = true ∧ s.ring.state = .off := by
  decide +kernel

/-- A turnover in flight to epoch 1, with one work item OPEN and its exchange outstanding. -/
def distributing : State :=
  let s := after .freeze { layoutState with
    turnover := { layoutState.turnover with state := .gathering, outTickets := (Table.fill 0).set 1 9 } }
  after .hubCycle s

theorem witness_RingStopEndsWork :
    let s := asking 0 (frameOf 1 0x32 []) distributing
    let t := ringIn .quieting (asking 0 (frameOf 1 0x32 []) calm)
    let u := ringIn .halted (asking 0 (frameOf 1 0x32 []) calm)
    (ready' 0 (frameOf 1 0x32 []) s = true ∧ (s.port 0).authority = true ∧ s.control.exchange ≠ none ∧
      s.ring.state = .running ∧ s.turnover.inFlight = true) ∧
    (ready' 0 (frameOf 1 0x32 []) t = true ∧ (t.port 0).authority = true ∧ t.control.attempt = none) ∧
    ready' 0 (frameOf 1 0x32 []) u = true ∧ u.control.attempt = none ∧ u.turnover.inFlight = false := by
  decide +kernel

theorem witness_RingRestartNumbersAgain :
    let s := asking 0 (frameOf 1 0x33 []) layoutState
    let t := asking 0 (frameOf 1 0x33 []) distributing
    (ready' 0 (frameOf 1 0x33 []) s = true ∧ (s.port 0).authority = true ∧ s.control.attempt = none ∧
      s.ring.state = .running ∧ s.turnover.inFlight = false) ∧
    ready' 0 (frameOf 1 0x33 []) t = true ∧ (t.port 0).authority = true ∧ t.control.exchange ≠ none ∧
      t.ring.state = .running ∧ t.turnover.inFlight = true := by decide +kernel

theorem witness_ResetsClearThePart :
    ready' 0 (frameOf 1 0x35 []) (asking 0 (frameOf 1 0x35 []) calm) = true ∧
      (calm.port 0).authority = true := by decide +kernel

/-! ## Witnesses: internal edits -/

/-- A state with a first internal entry. -/
def withInternal (e : InternalEntry) (s : State) : State :=
  { s with admission := { s.admission with internal := [e] } }

theorem witness_PortEntryPassesStreams :
    let s := withInternal (.port 0) (withLive calm
      [(0, shared), (1, stream 0 .host [1] false 8 2 1), (2, { shared with owner := 1, subscribers := [3, 0] }),
        (3, stream 1 .host [1] false 8 2 1)])
    s.admission.processing = none ∧ s.admission.internal = .port 0 :: [] ∧
      (s.entry 0).staged = some shared ∧ shared.owner = 0 ∧ shared.source = .node 1 ∧
      shared.subscribers = 2 :: [3] ∧
      (s.entry 1).staged = some (stream 0 .host [1] false 8 2 1) ∧
      (s.entry 2).staged = some { shared with owner := 1, subscribers := [3] ++ 0 :: [] } ∧
      (s.entry 3).staged = some (stream 1 .host [1] false 8 2 1) ∧ (s.entry 4).staged = none := by
  decide +kernel

theorem witness_LostEntryDropsNode :
    let s := withInternal (.lost 1) layoutState
    s.admission.processing = none ∧ s.admission.internal = .lost 1 :: [] ∧
      (s.entry 0).staged = some (stream 0 (.node 1) [4] false 4 1 0) ∧
      (s.entry 1).staged = some (stream 1 .host [1] false 8 2 1) ∧
      (stream 1 .host [1] false 8 2 1).source ≠ .node 1 ∧ 1 ∈ (stream 1 .host [1] false 8 2 1).sinks ∧
      (s.entry 2).staged = none := by decide +kernel

theorem witness_ChangedEntryFollowsReferences :
    let refs : List (StreamId × RefRole) := [(0, .source), (1, .sink)]
    let s := withInternal (.changed 1 refs) layoutState
    s.admission.processing = none ∧ s.admission.internal = .changed 1 refs :: [] ∧
      (s.entry 0).staged ≠ none ∧ refs.filter (fun r => r.1 == 0) = [(0, .source)] ∧
      (s.entry 1).staged = some (stream 1 .host [1] false 8 2 1) ∧
      refs.filter (fun r => r.1 == 1) = [(1, .sink)] ∧ 1 ∈ (stream 1 .host [1] false 8 2 1).sinks ∧
      (∀ r, ((3 : StreamId), r) ∉ refs) ∧
      ∀ id, refs.filter (fun r => r.1 == id) = [] ∨ refs.filter (fun r => r.1 == id) = [(id, .sink)] ∨
        refs.filter (fun r => r.1 == id) = (id, .source) :: [] := by
  refine ⟨by decide +kernel, by decide +kernel, by decide +kernel, by decide +kernel, by decide +kernel,
    by decide +kernel, by decide +kernel, fun r => by cases r <;> decide, by decide +kernel⟩

/-! ## Witnesses: turnover -/

/-- Gathering, with the counter at 0. -/
def gathering : State :=
  { layoutState with turnover := { layoutState.turnover with state := .gathering, gather := 0 } }

/-- Node 3 is STALE and recorded with epoch 1. -/
def guardedState : State :=
  { gathering with
    nodes :=
      { gathering.nodes with
        entries := gathering.nodes.entries.set 2 { readyNode 1 with state := .stale } } }

theorem witness_FreezeIsClaimedOrHeldBack :
    (gathering.turnover.state = .gathering ∧ gathering.turnover.gather = 0) ∧
    (guardedState.admission.processing = none ∧ guardedState.admission.internal = [] ∧
      guardedState.turnover.freezeDue = true ∧ (guardedState.node 2).state = .stale ∧
      (guardedState.node 2).held = some (guardedState.turnover.epoch + 1)) ∧
    ((ringIn .broken gathering).turnover.freezeDue = true ∧
      (ringIn .broken gathering).ring.state ≠ .running) ∧
    ready' 1 (frameOf 1 0x13 []) (asking 1 (frameOf 1 0x13 []) sharedState) = true := by decide +kernel

theorem witness_FreezeBeginsTurnover :
    gathering.admission.processing = none ∧ gathering.admission.internal = [] ∧
      gathering.turnover.freezeDue = true ∧ gathering.ring.state = .running ∧
      (∀ p, (gathering.node p).state = .stale →
        (gathering.node p).held ≠ some (gathering.turnover.epoch + 1)) ∧
      (gathering.node 0).state = .ready ∧
      gathering.plans.inForce.taps.get 0 = [] ∧ gathering.plans.inForce.taps.get 1 ≠ [] := by
  decide +kernel

/-- A refresh of node 3 is in progress at the freeze, with its exchange outstanding or without one. -/
def freezing (exchange : Option Exchange) : State :=
  { gathering with
    control :=
      { gathering.control with
        exchange := exchange, refresh := some { position := 2, parts := 2, next := 2, ended := false } } }

theorem witness_FreezeBeginsTurnover_refresh :
    let x : Exchange := { user := .refresh, message := .tapload 2 0 2 2 [], failed := 0, limit := 3 }
    (freezing (some x)).turnover.freezeDue = true ∧ (freezing (some x)).control.exchange = some x ∧
      x.user = .refresh ∧ (freezing none).turnover.freezeDue = true ∧
      (freezing none).control.exchange = none ∧ (freezing none).control.refresh ≠ none := by decide +kernel

/-- A retained table that knew another node at position 7. -/
def reconcilingTable : Retained := { entries := layoutState.nodes.entries.set 6 (readyNode 0), count := 7 }

/-- Identification is over, with that retained table. -/
def reconciling : State :=
  { ringIn .identifying layoutState with
    nodes := { layoutState.nodes with procedure := .reconciling, retained := some reconcilingTable } }

theorem witness_ReconciliationEntersRunning :
    reconciling.nodes.procedure = .reconciling ∧
      reconciling.nodes.retained = some reconcilingTable ∧
      reconciling.admission.processing = none ∧ reconciling.admission.internal = [] ∧
      reconciling.turnover.inFlight = false ∧ (reconciling.entry 0).inForce ≠ none := by decide +kernel

/-! ## Witnesses: cycles -/

/-- A state in which nothing is outstanding, with a Node Table procedure. -/
def withProcedure (t : Procedure) (s : State) : State :=
  { s with control := Control.reset, nodes := { s.nodes with procedure := t } }

/-- Distribution is about to send its first message: LOAD to position 1, or KEEP to position 2. -/
def loading : State := withProcedure .idle distributing
def keeping : State :=
  { loading with turnover := { loading.turnover with work := loading.turnover.work.tail } }

/-- Node 3 is STALE with the in-force epoch recorded and three failures. -/
def staleState : State :=
  { layoutState with
    nodes :=
      { layoutState.nodes with
        entries := layoutState.nodes.entries.set 2 { readyNode 0 with state := .stale, failures := 3 } } }

/-- A refresh of node 3, whose tap list takes one part. -/
def refresh3 (ended : Bool) : Refresh := { position := 2, parts := 1, next := 1, ended := ended }

theorem witness_HubCycleIsSent :
    (∀ s ∈ [distributing, loading, keeping, gathering, ringIn .broken layoutState, staleState,
        withProcedure (.numbering 0) (ringIn .numbering calm),
        withProcedure (.identifying 14) (ringIn .identifying calm), withProcedure (.verifying [3, 5]) calm],
      s.ring.state ≠ .off ∧ s.ring.state ≠ .quieting ∧ s.switchDue s.ring.nextCount = false) ∧
    (let q : State := { calm with ring := { calm.ring with state := .quieting, quietLeft := 1 } }
    q.ring.state = .quieting ∧ 0 < q.ring.quietLeft ∧ q.switchDue q.ring.nextCount = false) ∧
    distributing.control.attempt ≠ none ∧
    (loading.turnover.state = .distributing ∧ loading.turnover.work.head?.map (·.mark) = some .load ∧
      keeping.turnover.work.head?.map (·.mark) = some .keep ∧ loading.plans.outgoing ≠ none ∧
      loading.control.exchange = none ∧ loading.nodes.procedure = .idle) ∧
    (staleState.control.refresh = none ∧ staleState.ring.nextCount.toNat % 64 = 0 ∧
      staleState.turnover.inFlight = false ∧ (staleState.node 2).state = .stale ∧
      (staleState.plans.inForce.taps.get 2).length ≤ 3 * 1) := by decide +kernel

/-- A refresh tick finds the STALE node, and the message is part 1 of 1 for the in-force epoch (R123). -/
theorem test_refresh_tick :
    let t := after .hubCycle staleState
    t.control.refresh = some (refresh3 false) ∧ (controlOf t.ring.rgo).take 7 = [0x11, 3, 0, 0, 1, 1, 0] := by
  decide +kernel

theorem witness_SentCycleReadsBack :
    (zeros 16).length = 16 ∧ (zeros 224).length = 224 ∧
      ∃ rest : List Byte, (0xF0 :: 0x0F :: rest).length = 256 :=
  ⟨List.length_replicate, List.length_replicate, zeros 254, by
    rw [List.length_cons, List.length_cons, show (zeros 254).length = 254 from List.length_replicate]⟩

/-- The mark of R87 on a line that stood low: the pair without a transition is at cells 7 and 8. -/
theorem test_mark_levels :
    levelsOf false (markCells.take 10) =
      [true, false, true, false, true, false, true, false, true, true, false, false, true, true, true, true,
        true, true, false, false] ∧
    markAt 0 ([idleCell, idleCell] ++ markCells) = some 2 := by decide

/-- A turnover ready for its switch cycle: stream 1 resized, node 2 acknowledged, the others not. -/
def switching : State :=
  let view : Table Entry 48 := layoutState.streams.map fun e => { e with outgoing := e.inForce }
  let view := view.modify 1 fun e => { e with outgoing := some (stream 1 .host [1] false 9 2 1) }
  { layoutState with
    streams := view
    plans := { layoutState.plans with outgoing := some (compile (view.map Entry.outgoing) 1) }
    turnover :=
      { layoutState.turnover with
        state := .switching, target := some 1
        outTickets := (Table.fill 0).set 1 9
        work := [{ position := 1, mark := .load, parts := 5, next := 5, outcome := .acknowledged }] } }

theorem witness_SwitchCyclePutsPlanInForce :
    switching.ring.state = .running ∧ switching.turnover.state = .switching ∧
      switching.ring.nextCount.toNat % 8 = 0 ∧ switching.turnover.target = some 1 ∧
      switching.plans.outgoing = some (compile switching.outgoingView 1) ∧
      (switching.entry 1).inForce = some (stream 1 .host [1] false 8 2 1) ∧
      (switching.entry 1).outgoing = some (stream 1 .host [1] false 9 2 1) ∧
      (switching.node 0).state = .ready ∧
      (∀ w ∈ switching.turnover.work, w.position = 0 → w.outcome ≠ .acknowledged) ∧
      switching.turnover.outTickets.get 1 ≠ 0 ∧ switching.turnover.outTickets.get 0 = 0 := by
  decide +kernel

/-- A cycle of the epoch that the switch ends is awaited, or one of another epoch is. -/
theorem witness_SwitchCyclePutsPlanInForce_retired :
    (∃ r ∈ [({ count := 7, epoch := 0, awaits := false, start := 0 } : CycleRecord)],
      r.epoch = switching.plans.inForce.epoch) ∧
    ∀ r ∈ [({ count := 7, epoch := 3, awaits := false, start := 0 } : CycleRecord)],
      r.epoch ≠ switching.plans.inForce.epoch := by decide +kernel

/-- The old plan is retired while a cycle sent under it is awaited, and discarded with its return (R34). -/
theorem test_plan_is_retired :
    let s : State := { switching with
      ring := { switching.ring with sent := [{ count := 7, epoch := 0, awaits := false, start := 0 }] } }
    let t := after .hubCycle s
    t.plans.retired = some s.plans.inForce ∧ (after .returnWindowExpiry t).plans.retired = none ∧
      (after .hubCycle switching).plans.retired = none := by decide +kernel

/-- The ticket is settled and the nodes left out are told STALE, at port 1 (R20, R81, R130). -/
theorem test_switch_settles :
    (((after .hubCycle switching).port 1).responses.getLast? = some (.notice (.settled 9 1))) ∧
      ((after .hubCycle switching).port 0).responses.length = 5 := by decide +kernel

theorem witness_FillFollowsBuffer :
    let s := postedState (.fresh (sample8 0xA1)) 0x0601
    s.ring.state ≠ .off ∧ s.ring.state ≠ .quieting ∧ s.plansMatch ∧ s.pagesWithin ∧ s.postsFit ∧
      s.plans.inForce.layouts.get (pageOf s.ring.nextCount) = [{ stream := 2, offset := 0, length := 9 }] ∧
      s.switchDue s.ring.nextCount = false ∧ switching.switchDue switching.ring.nextCount = true := by
  refine ⟨by decide +kernel, by decide +kernel, by unfold State.plansMatch; decide +kernel,
    by unfold State.pagesWithin; decide +kernel, fun id d x hd hx => ?_, by decide +kernel,
    by decide +kernel, by decide +kernel⟩
  have e : ∀ id, ((postedState (.fresh (sample8 0xA1)) 0x0601).entry id).inForce =
      if id = 2 then some (postedStream 8) else none := by decide +kernel
  have e' : (postedState (.fresh (sample8 0xA1)) 0x0601).mover.posts.get 2 = .fresh (sample8 0xA1) := by
    decide +kernel
  rw [e id] at hd
  split at hd
  · next h =>
    subst h; cases hd; rw [e'] at hx
    rcases hx with hx | hx <;> cases hx
    decide
  · cases hd

/-- The quiet cycles are over, with a destination. -/
def quietOver (d : QuietDest) : State :=
  { layoutState with
    ring := { layoutState.ring with state := .quieting, quietLeft := 0, quietDest := some d } }

theorem witness_QuietCyclesEndAtDestination :
    (∀ d ∈ [QuietDest.off, .numbering], (quietOver d).ring.state = .quieting ∧
      (quietOver d).ring.quietLeft = 0 ∧ (quietOver d).ring.quietDest = some d) := by decide +kernel

/-! ## Cycles written out

The check values below were computed outside the model from the words of R188 and R189. -/

/-- Bits shifted in one after another, each register value worked out before the next bit. -/
def shiftIn {w : Nat} (f : BitVec w → Bool → BitVec w) : BitVec w → List Bool → BitVec w
  | r, [] => r
  | r, b :: bs =>
    match (f r b).toNat with
    | 0 => shiftIn f 0 bs
    | n + 1 => shiftIn f (BitVec.ofNat w (n + 1)) bs

theorem shiftIn_eq {w : Nat} (f : BitVec w → Bool → BitVec w) (r : BitVec w) (l : List Bool) :
    shiftIn f r l = l.foldl f r := by
  induction l generalizing r with
  | nil => rfl
  | cons b bs ih =>
    rw [shiftIn, List.foldl_cons]
    have e : BitVec.ofNat w (f r b).toNat = f r b := by simp
    split
    · next h => rw [ih]; rw [h] at e; rw [← e]; rfl
    · next n h => rw [ih]; rw [h] at e; rw [← e]

/-- The header check, worked out bit by bit. -/
def headerCheck (c : List Byte) : Byte := shiftIn crc8Bit 0xFF ((headerBody c).flatMap octetBits)

/-- The payload check, worked out bit by bit. -/
def payloadCheck (c : List Byte) : BitVec 16 := shiftIn crc16Bit 0xFFFF ((payloadOf c).flatMap octetBits)

theorem headerGood_of {c : List Byte} (h : headerCheck c = octetAt c 23) : headerGood c = true := by
  unfold headerCheck at h; rw [shiftIn_eq] at h; exact beq_iff_eq.mpr h

theorem headerBad_of {c : List Byte} (h : headerCheck c ≠ octetAt c 23) : headerGood c = false := by
  unfold headerCheck at h; rw [shiftIn_eq] at h; exact beq_eq_false_iff_ne.mpr h

theorem payloadGood_of {c : List Byte} (h : payloadCheck c = octetAt c 248 ++ octetAt c 249) :
    payloadGood c = true := by
  unfold payloadCheck at h; rw [shiftIn_eq] at h; exact beq_iff_eq.mpr h

/-- A cycle from its header without the mark, its control field, header check, payload and payload check. -/
def written (header control : List Byte) (check : Byte) (payload check' : List Byte) : List Byte :=
  [0xF0, 0x0F] ++ header ++ padTo 16 control ++ [check] ++ padTo 224 payload ++ check' ++ zeros 6

/-! ## Witnesses: returns -/

/-- One cycle of page 0 is awaited, and ports 0, 2 and 3 receive stream 0. -/
def awaiting : State :=
  { sharedState with
    ring :=
      { sharedState.ring with sent := [{ count := 8, epoch := 0, awaits := false, start := 2048 }] } }

/-- A beacon from position 4. -/
def beacon4 : List Byte := written [0x80, 0, 0, 0, 4] [] 0x63 [] [0xB7, 0x1D]

theorem test_beacon_header_check : headerGood beacon4 = true := headerGood_of (by decide +kernel)

/-- The ring states in which cycles are sent. -/
def sendingStates : List RingState := [.quieting, .numbering, .identifying, .running, .broken, .halted]

/-- The record of the awaited cycle of page 0. -/
def cycle8 : CycleRecord := { count := 8, epoch := 0, awaits := false, start := 2048 }

theorem missedBy_expiry : missedBy .returnWindowExpiry none := .inl ⟨rfl, rfl⟩

theorem missedBy_beacon4 :
    missedBy (.beaconReceived beacon4) (some 4) ∧ missedBy (.returnEvaluation 9 ⟨beacon4, []⟩) (some 4) := by
  have b : isBeacon beacon4 = true := by decide +kernel
  have o : numAt beacon4 6 = posNum 3 := by decide +kernel
  exact ⟨.inr ⟨beacon4, 3, 4, test_beacon_header_check, b, o, rfl, rfl, .inl rfl⟩,
    .inr ⟨beacon4, 3, 4, test_beacon_header_check, b, o, rfl, rfl, .inr ⟨9, rfl⟩⟩⟩

theorem witness_MissCountsAndLeavesGaps : ∀ st ∈ sendingStates,
    let s := ringIn st awaiting
    s.ring.sent = cycle8 :: [] ∧ s.ring.state ≠ .off ∧ s.decidesNothing cycle8 ∧
      s.returnsMissed cycle8 [] .returnWindowExpiry (s.ring.afterMiss cycle8 [] none) ∧
      s.returnsMissed cycle8 [] (.beaconReceived beacon4) (s.ring.afterMiss cycle8 [] (some 4)) ∧
      s.returnsMissed cycle8 [] (.returnEvaluation 9 ⟨beacon4, []⟩) (s.ring.afterMiss cycle8 [] (some 4)) := by
  intro st h
  have m : (ringIn st awaiting).ring.misses + 1 < (ringIn st awaiting).ring.missLimit := by
    show awaiting.ring.misses + 1 < awaiting.ring.missLimit; decide +kernel
  refine ⟨rfl, fun e => ?_, .inl rfl,
    ⟨fun _ => m, none, missedBy_expiry, rfl⟩,
    ⟨fun _ => m, some 4, missedBy_beacon4.1, rfl⟩, ⟨fun _ => m, some 4, missedBy_beacon4.2, rfl⟩⟩
  rw [show (ringIn st awaiting).ring.state = st from rfl] at e
  rw [e] at h; exact absurd h (by decide)

/-- Three ports are listed for the stream of the cycle's page, and no plan is of epoch 5. -/
theorem witness_leavesGaps :
    awaiting.planFor 0 = some (awaiting.plans.inForce, awaiting.mover.delivery) ∧
      ((awaiting.plans.inForce.layouts.get (pageOf 8)).map (·.stream)).Nodup ∧
      (∀ id, (listedPorts awaiting.mover.delivery id).Nodup) ∧
      listedPorts awaiting.mover.delivery 0 = [0, 2, 3] ∧ (awaiting.planFor 5).isNone = true := by
  decide +kernel

/-- A beacon has concluded cycle 8, and with L unknown cycle 9 is awaited. -/
def beaconed : State :=
  { awaiting with
    ring :=
      { awaiting.ring with
        latency := none, sent := [{ count := 9, epoch := 0, awaits := false, start := 4096 }]
        beaconed := [8] } }

theorem witness_MissLimitBreaksRing :
    (let s : State := { distributing with ring := { distributing.ring with misses := 2 } }
    s.ring.state = .running ∧ s.ring.sent ≠ [] ∧ s.ring.missLimit ≤ s.ring.misses + 1 ∧
      s.control.exchange.map (·.user) = some .distribution ∧ s.turnover.inFlight = true ∧
      s.nodes.procedure.left.Nodup) ∧
    (let s : State := { awaiting with
        ring := { awaiting.ring with misses := 2 }
        nodes := { awaiting.nodes with procedure := .verifying [3, 1] } }
    s.ring.missLimit ≤ s.ring.misses + 1 ∧ s.control.exchange = none ∧ s.turnover.inFlight = false ∧
      s.nodes.procedure.left = [3, 1] ∧ (s.node 3).state = .ready) ∧
    missedBy .returnWindowExpiry none ∧ missedBy (.beaconReceived beacon4) (some 4) :=
  ⟨by decide +kernel, by decide +kernel, missedBy_expiry, missedBy_beacon4.1⟩

/-- The miss that reaches the limit drops the exchange that waits in a later cycle, which alone then awaits no
reply (R98, R117). -/
theorem test_miss_limit_drops_attempt :
    let x : Exchange := { user := .verification, message := .identify 3, failed := 0, limit := 3 }
    let other (c : CycleCount) (awaits : Bool) : CycleRecord :=
      { count := c, epoch := 0, awaits := awaits, start := 4096 }
    let s : State := { awaiting with
      ring := { awaiting.ring with misses := 2, sent := [cycle8, other 9 true, other 10 true] }
      nodes := { awaiting.nodes with procedure := .verifying [3] }
      control := { awaiting.control with exchange := some x, attempt := some { sequence := 9, count := 10 } } }
    (after .returnWindowExpiry s).ring.sent = [other 9 true, other 10 false] := by decide +kernel

/-- The positions left in the round become STALE, and are told so before the ring's new state (R105,
R142). -/
theorem test_miss_limit_tells :
    let s : State := { awaiting with
      ring := { awaiting.ring with misses := 2 }
      nodes := { awaiting.nodes with procedure := .verifying [3] } }
    ((after .returnWindowExpiry s).port 1).responses =
      [.notice (.nodeState 3 .stale (some 0) 0 .verification), .notice (.ringState .broken 16 .misses)] := by
  decide +kernel

/-- The return of the awaited cycle, with a FRESH slot of stream 0. -/
def goodReturn : List Byte :=
  written [0, 0, 8, 6, 0] [] 0x2C [0x54, 0xA1, 0xA2, 0xA3, 0xA4] [0x9D, 0x2F]

theorem test_good_return_checks : headerGood goodReturn = true ∧ payloadGood goodReturn = true :=
  ⟨headerGood_of (by decide +kernel), payloadGood_of (by decide +kernel)⟩

theorem goodReturn_good : goodReturnOf cycle8 goodReturn :=
  ⟨test_good_return_checks.1, test_good_return_checks.2, by decide +kernel, by decide +kernel⟩

/-- The same return with another payload octet, or with another header check. -/
def damagedReturn : List Byte :=
  written [0, 0, 8, 6, 0] [] 0x2C [0x54, 0xA1, 0xA2, 0xA3, 0xA5] [0x9D, 0x2F]
def unreadable : List Byte :=
  written [0, 0, 8, 6, 0] [] 0x2D [0x54, 0xA1, 0xA2, 0xA3, 0xA4] [0x9D, 0x2F]

theorem damages_of_payload {g : Ring} {r : CycleRecord} {c : List Byte}
    (p : payloadCheck c ≠ octetAt c 248 ++ octetAt c 249) (b : isBeacon c = false) (n : countOf c = r.count) :
    g.damages r c := by
  refine ⟨fun h => ?_, fun _ => ⟨b, fun e => absurd n e⟩⟩
  unfold payloadCheck at p; rw [shiftIn_eq] at p
  exact p (beq_iff_eq.mp h.2.1)

theorem damages_of_header {g : Ring} {r : CycleRecord} {c : List Byte} (h : headerCheck c ≠ octetAt c 23) :
    g.damages r c :=
  ⟨fun e => by rw [goodReturnOf, headerBad_of h] at e; exact absurd e.1 (by decide),
    fun e => by rw [headerBad_of h] at e; exact absurd e (by decide)⟩

/-- In every ring state in which cycles are sent, with marks at the edges of the window (R96). -/
theorem witness_GoodReturnIsDelivered : ∀ st ∈ sendingStates,
    let s := ringIn st awaiting
    s.ring.state ≠ .off ∧ s.ring.sent = cycle8 :: [] ∧ s.ring.latency = some 300 ∧ s.decidesNothing cycle8 ∧
      s.ring.hears cycle8 2284 ∧ s.ring.hears cycle8 2412 ∧
      s.returnsGood cycle8 [] (fun d => d = 2284) goodReturn (.returnEvaluation 2284 ⟨goodReturn, []⟩)
        (s.ring.afterGood [] false) := by
  intro st h
  refine ⟨fun e => ?_, rfl, rfl, .inl rfl,
    ⟨by decide, .inr ⟨300, rfl, by decide, by decide⟩⟩,
    ⟨by decide, .inr ⟨300, rfl, by decide, by decide⟩⟩, ⟨2284, rfl, rfl⟩, goodReturn_good,
    fun _ => .inl (by show numAt goodReturn 5 = awaiting.nodes.count.val; decide +kernel),
    fun _ => by show awaiting.ring.heal + 1 < awaiting.ring.healCount; decide +kernel, ?_⟩
  · rw [show (ringIn st awaiting).ring.state = st from rfl] at e
    rw [e] at h; exact absurd h (by decide)
  · rw [show decide (numAt goodReturn 5 ≠ (ringIn st awaiting).nodes.count.val) = false by
      show decide (numAt goodReturn 5 ≠ awaiting.nodes.count.val) = false; decide +kernel]

theorem witness_GoodReturnIsDelivered_record :
    awaiting.planFor 0 = some (awaiting.plans.inForce, awaiting.mover.delivery) ∧
      awaiting.plans.inForce.layouts.get (pageOf 8) = [{ stream := 0, offset := 0, length := 5 }] ∧
      listedPorts awaiting.mover.delivery 0 = [0, 2, 3] ∧ (awaiting.port 2).attached = true ∧
      slotTag (octetAt goodReturn (24 + 0)) = epochTag 0 ∧
      slotValidity (octetAt goodReturn (24 + 0)) ≠ .void ∧
      occupancy (awaiting.port 2).delivery + 10 ≤ 4096 := by decide +kernel

/-- The late mark of the cycle that a beacon concluded, within the window of the next one, is not taken; any
other mark there is, and a good beacon wherever it comes (R96). -/
theorem test_late_mark :
    let r : CycleRecord := { count := 9, epoch := 0, awaits := false, start := 4096 }
    beaconed.ring.sent = [r] ∧ beaconed.ring.takes r 4200 goodReturn = false ∧
      beaconed.ring.takes r 4200 [] = true ∧ beaconed.ring.takes r 0 beacon4 = true := by
  have g : goodBeacon goodReturn = false := by
    rw [goodBeacon, show isBeacon goodReturn = false by decide +kernel, Bool.and_false]
  have late : beaconed.ring.late { count := 9, epoch := 0, awaits := false, start := 4096 } goodReturn = true :=
    Ring.late_iff.mpr ⟨test_good_return_checks.1, by decide +kernel, by decide +kernel, by decide +kernel⟩
  exact ⟨rfl, Ring.takes_late g late 4200, by decide +kernel,
    Ring.takes_beacon (goodBeacon_iff.mpr ⟨test_beacon_header_check, by decide +kernel⟩) 0⟩

theorem witness_MissCountsAndLeavesGaps_late :
    beaconed.ring.sent = { count := 9, epoch := 0, awaits := false, start := 4096 } :: [] ∧
      headerGood goodReturn = true ∧ isBeacon goodReturn = false ∧ countOf goodReturn ≠ 9 ∧
      countOf goodReturn ∈ beaconed.ring.beaconed :=
  ⟨rfl, test_good_return_checks.1, by decide +kernel, by decide +kernel, by decide +kernel⟩

/-- A retired plan of epoch 3, with a record of that epoch still awaited after a return, or with none. -/
theorem witness_retiresAfter :
    let s : State := { awaiting with plans := { awaiting.plans with retired := some (compile (Table.fill none) 3) } }
    s.plans.retired = some (compile (Table.fill none) 3) ∧
      (∃ r ∈ [({ count := 7, epoch := 3, awaits := false, start := 0 } : CycleRecord)],
        r.epoch = (compile (Table.fill none) 3).epoch) ∧
      ∀ r ∈ ([] : List CycleRecord), r.epoch ≠ (compile (Table.fill none) 3).epoch := by decide +kernel

theorem test_good_return_record :
    (((awaiting.evaluate { count := 8, epoch := 0, awaits := false, start := 2048 } (.good goodReturn)
      300 []).port 2).delivery) =
      [{ stream := 0, validity := .fresh, sequence := 5, cycle := 8, gap := 0
         payload := [0xA1, 0xA2, 0xA3, 0xA4] }] := by decide +kernel

/-- Two streams of port 0 on page 0, and a record already in its delivery queue. -/
def twoOnPage : State :=
  let s := withLive calm
    [(0, stream 0 (.node 1) [] true 4 1 0), (1, stream 0 (.node 2) [] true 4 1 0)]
  ({ s with
    ring := { s.ring with sent := awaiting.ring.sent } } : State).modPort 0 fun h =>
      { h with
        delivery :=
          [{ stream := 0, validity := .held, sequence := 0, cycle := 7, gap := 0, payload := [1, 2, 3, 4] }] }

theorem witness_ReturnsMakeRecords :
    twoOnPage.ring.state ≠ .off ∧ twoOnPage.ring.sent = cycle8 :: [] ∧ twoOnPage.ring.hears cycle8 2348 ∧
      twoOnPage.decidesNothing cycle8 ∧
      twoOnPage.planFor 0 = some (twoOnPage.plans.inForce, twoOnPage.mover.delivery) ∧
      (∀ id, (listedPorts twoOnPage.mover.delivery id).Nodup) ∧
      (twoOnPage.plans.inForce.layouts.get (pageOf 8)).map (·.stream) = [0, 1] ∧
      listedPorts twoOnPage.mover.delivery 0 = [0] ∧ listedPorts twoOnPage.mover.delivery 1 = [0] ∧
      twoOnPage.listens 0 ∧ (twoOnPage.port 0).delivery.length = 1 := by
  refine ⟨by decide +kernel, by decide +kernel,
    ⟨by decide, .inr ⟨300, by decide +kernel, by decide, by decide⟩⟩, .inl rfl, ?_⟩
  unfold State.listens; decide +kernel

/-- A good and two damaged returns of that cycle, in RUNNING and in BROKEN. -/
theorem witness_ReturnsMakeRecords_returns : ∀ st ∈ [RingState.running, .broken],
    let s := ringIn st twoOnPage
    s.returnsGood cycle8 [] (fun d => d = 2348) goodReturn (.returnEvaluation 2348 ⟨goodReturn, []⟩)
      (s.ring.afterGood [] (decide (numAt goodReturn 5 ≠ s.nodes.count.val))) ∧
    s.returnsDamaged cycle8 [] (fun d => d = 2348) damagedReturn
      (.returnEvaluation 2348 ⟨damagedReturn, []⟩) (s.ring.afterDamaged [] (some false)) ∧
    s.returnsDamaged cycle8 [] (fun d => d = 2348) unreadable
      (.returnEvaluation 2348 ⟨unreadable, []⟩) (s.ring.afterDamaged [] none) := by
  intro st _
  have n : (ringIn st twoOnPage).nodes.count.val = 6 := by
    show twoOnPage.nodes.count.val = 6; decide +kernel
  have u : headerCheck unreadable ≠ octetAt unreadable 23 := by decide +kernel
  refine ⟨⟨⟨_, rfl, rfl⟩, goodReturn_good, fun _ => .inl ?_, fun _ => ?_, rfl⟩,
    ⟨⟨_, rfl, rfl⟩, damages_of_payload (by decide +kernel) (by decide +kernel) (by decide +kernel),
      fun _ _ _ => .inl ?_, ?_⟩,
    ⟨_, rfl, rfl⟩, damages_of_header u, fun _ h => absurd h (by rw [headerBad_of u]; decide), ?_⟩
  · rw [n]; decide +kernel
  · show twoOnPage.ring.heal + 1 < twoOnPage.ring.healCount; decide +kernel
  · rw [n]; decide +kernel
  · rw [if_pos ⟨headerGood_of (by decide +kernel), by decide +kernel⟩, n]
    rw [show decide (numAt damagedReturn 5 ≠ 6) = false by decide +kernel]
  · rw [if_neg fun h => absurd h.1 (by rw [headerBad_of u]; decide)]

/-- A record drained between two records of one return makes room for the second (R156). -/
theorem test_drain_makes_room :
    let old : Record :=
      { stream := 0, validity := .held, sequence := 0, cycle := 7, gap := 0, payload := zeros 32 }
    let s := twoOnPage.modPort 0 fun h => { h with delivery := List.replicate 107 old }
    let r : CycleRecord := { count := 8, epoch := 0, awaits := false, start := 2048 }
    let got (d : List (List DrainPart)) : List (StreamId × Nat) :=
      (((s.extract r (.damaged []) d).port 0).delivery.drop 105).map fun x => (x.stream, x.payload.length)
    let full := s.modPort 0 fun h => { h with delivery := { old with payload := zeros 18 } :: h.delivery }
    got [] = [(0, 32), (0, 32), (0, 0), (1, 0)] ∧
      ((full.extract r (.damaged []) []).port 0).delivery.length = 109 ∧
      ((full.extract r (.damaged []) [[], [⟨0, txnBits 3 0 (zeros 24), true⟩]]).port 0).delivery.length = 109 ∧
      ((full.extract r (.damaged []) [[], [⟨0, txnBits 3 0 (zeros 24), true⟩]]).port 0).gaps.get 1 = 0 ∧
      ((full.extract r (.damaged []) []).port 0).gaps.get 1 = 1 := by decide +kernel

/-! ## Witnesses: exchanges -/

/-- The cycle that carries the outstanding attempt. -/
def asked : CycleRecord := { count := 4, epoch := 0, awaits := true, start := 100 }

/-- An exchange is outstanding, its attempt carried by the cycle awaited. -/
def outstanding (st : RingState) (t : Procedure) (x : Exchange) (refresh : Option Refresh) (s : State) :
    State :=
  { s with
    ring := { s.ring with state := st, sent := [asked] }
    nodes := { s.nodes with procedure := t }
    control :=
      { Control.reset with
        exchange := some x, attempt := some { sequence := 9, count := 4 }, refresh := refresh } }

theorem witness_attempts (st : RingState) (t : Procedure) (x : Exchange) (f : Option Refresh)
    (s : State) :
    (outstanding st t x f s).attempts asked [] x { sequence := 9, count := 4 } :=
  ⟨rfl, rfl, rfl, rfl, rfl⟩

/-- With empty delivery tables no port is listed for any cycle. -/
theorem nothingListed_of {s : State} {r : CycleRecord} (h : s.mover.delivery = [])
    (h' : s.mover.retiredDelivery = none) : s.nothingListed r := by
  intro plan lines hp pl _
  have e : lines = [] := by
    unfold State.planFor at hp
    split at hp
    · cases hp; exact h
    · simp [h'] at hp
  rw [e]; rfl

/-- A return of that cycle, with the hop count of six nodes. -/
def replied (hops : Byte) (field : List Byte) (check : Byte) : List Byte :=
  written [0, 0, 4, hops, 0] field check [] [0xB7, 0x1D]

def identity3 : List Byte := replied 6 [0x20, 3, 9, 1, 1, 0, 0, 0, 7, 32, 0] 0x8E
def stranger3 : List Byte := replied 6 [0x20, 3, 9, 2, 3, 0, 0, 0, 8, 64, 0xFF] 0x25
def identity6 : List Byte := replied 6 [0x20, 6, 9, 1, 1, 0, 0, 0, 7, 8, 0] 0xAA
def loadack1 : List Byte := replied 6 [0x21, 1, 9, 1, 1] 0x39
def nak1 : List Byte := replied 6 [0x23, 1, 9, 1, 1] 0x3D
def keepack2 : List Byte := replied 6 [0x22, 2, 9, 1] 0xBA
def loadack3 : List Byte := replied 6 [0x21, 3, 9, 0, 1] 0xC0
def nak3 : List Byte := replied 6 [0x23, 3, 9, 0, 1] 0xC4
def silent6 : List Byte := replied 6 [] 0xDF
def silent7 : List Byte := replied 7 [] 0xF5
def numberReturn : List Byte := replied 15 [1, 0, 9, 16, 0] 0x07
def numberNone : List Byte := replied 0 [1, 0, 9, 1, 0] 0x6D
def numberMany : List Byte := replied 15 [1, 0, 9, 17, 0] 0x93

/-- Each of them is a good return of its cycle. -/
theorem test_replies_are_good : ∀ c ∈ [identity3, stranger3, identity6, loadack1, nak1, keepack2, loadack3,
    nak3, silent6, silent7, numberReturn, numberNone, numberMany], goodReturnOf asked c := by
  have e : ∀ c ∈ [identity3, stranger3, identity6, loadack1, nak1, keepack2, loadack3, nak3, silent6,
      silent7, numberReturn, numberNone, numberMany],
      headerCheck c = octetAt c 23 ∧ payloadCheck c = octetAt c 248 ++ octetAt c 249 ∧
        isBeacon c = false ∧ countOf c = 4 := by decide +kernel
  exact fun c h => ⟨headerGood_of (e c h).1, payloadGood_of (e c h).2.1, (e c h).2.2.1, (e c h).2.2.2⟩

/-- Good returns of that cycle that answer no message asked below: the messages as they were sent, a reply with
another sequence number, from another responder or with a body that does not match, a NUMBER of counter 0, and
none. -/
def unanswering : List (List Byte) :=
  [replied 6 [0x10, 3, 9] 0xFF, replied 6 [0x20, 3, 8, 1, 1, 0, 0, 0, 7, 32, 0] 0x6B,
    replied 6 [0x20, 4, 9, 1, 1, 0, 0, 0, 7, 32, 0] 0x8C, replied 6 [0x20, 3, 9, 1, 1, 0, 0, 0, 7, 7, 0] 0x3C,
    replied 6 [0x11, 1, 9, 1, 1, 1] 0x46, replied 6 [0x21, 1, 8, 1, 1] 0xDC, replied 6 [0x21, 2, 9, 1, 1] 0xE1,
    replied 6 [0x21, 1, 9, 1, 2] 0xDE, replied 6 [1, 0, 9, 0, 0] 0x05, silent6]

/-- The attempt that the cycle carries, and the messages asked below. -/
def attempt9 : Attempt := { sequence := 9, count := 4 }
def messagesAsked : List Message :=
  [.number 0, .identify 2, .tapload 0 1 1 1 [], .keep 1 1, .tapload 2 0 1 1 []]

theorem unanswering_good : ∀ c ∈ unanswering, goodReturnOf asked c ∧ numAt c 5 = 6 := by
  have e : ∀ c ∈ unanswering,
      headerCheck c = octetAt c 23 ∧ payloadCheck c = octetAt c 248 ++ octetAt c 249 ∧
        isBeacon c = false ∧ countOf c = 4 ∧ numAt c 5 = 6 := by decide +kernel
  exact fun c h => ⟨⟨headerGood_of (e c h).1, payloadGood_of (e c h).2.1, (e c h).2.2.1, (e c h).2.2.2.1⟩,
    (e c h).2.2.2.2⟩

theorem unanswering_not : ∀ m ∈ messagesAsked, ∀ c ∈ unanswering, ¬ m.answered attempt9 c := by
  have e : ∀ c ∈ unanswering, ¬ (octetAt c 7 = 0x20 ∧ numAt c 8 = posNum 2 ∧ octetAt c 9 = 9 ∧
      8 ≤ numAt c 16) := by decide +kernel
  intro m h
  simp only [messagesAsked, List.mem_cons, List.not_mem_nil, or_false] at h
  rcases h with rfl | rfl | rfl | rfl | rfl
  · unfold Message.answered; decide +kernel
  · rintro c hc ⟨i, held, h1, h2, h3, _, _, _, h4, h5, _⟩
    exact e c hc ⟨h1, h2, h3, h4 ▸ h5⟩
  · unfold Message.answered saysReply; decide +kernel
  · unfold Message.answered saysReply; decide +kernel
  · unfold Message.answered saysReply; decide +kernel

/-- Two damaged returns of that cycle. -/
def damaged4 : List Byte := written [0, 0, 4, 6, 0] [] 0xDF [1] [0xB7, 0x1D]
def unreadable4 : List Byte := written [0, 0, 4, 6, 0] [] 0xDE [] [0xB7, 0x1D]

/-- Every way of failing (R115): a miss without and with a beacon, a damaged return, and each of the unanswering
ones. -/
theorem fails_of {s : State} {x : Exchange} {heard : Nat → Prop} {cell : Nat} (h : heard cell)
    (n : s.nodes.count.val = 6) (l : s.ring.misses + 1 < s.ring.missLimit)
    (b : s.ring.heal + 1 < s.ring.healCount) (m : x.message ∈ messagesAsked) :
    (∃ g, s.failsAttempt asked [] x attempt9 heard .returnWindowExpiry g) ∧
    (∃ g, s.failsAttempt asked [] x attempt9 heard (.beaconReceived beacon4) g) ∧
    (∀ c ∈ [damaged4, unreadable4], ∃ g,
      s.failsAttempt asked [] x attempt9 heard (.returnEvaluation cell ⟨c, []⟩) g) ∧
    ∀ c ∈ unanswering, ∃ g,
      s.failsAttempt asked [] x attempt9 heard (.returnEvaluation cell ⟨c, []⟩) g := by
  refine ⟨⟨_, .inl ⟨fun _ => l, none, missedBy_expiry, rfl⟩⟩,
    ⟨_, .inl ⟨fun _ => l, some 4, missedBy_beacon4.1, rfl⟩⟩, fun c hc => ?_, fun c hc => ?_⟩
  · have d : s.ring.damages asked c ∧ numAt c 5 = 6 := by
      simp only [List.mem_cons, List.not_mem_nil, or_false] at hc
      rcases hc with rfl | rfl
      · exact ⟨damages_of_payload (by decide +kernel) (by decide +kernel) (by decide +kernel),
          by decide +kernel⟩
      · exact ⟨damages_of_header (by decide +kernel), by decide +kernel⟩
    exact ⟨_, .inr (.inl ⟨c, ⟨cell, h, rfl⟩, d.1, fun _ _ _ => .inl (d.2.trans n.symm), rfl⟩)⟩
  · exact ⟨_, .inr (.inr ⟨c, ⟨⟨cell, h, rfl⟩, (unanswering_good c hc).1,
      fun _ => .inl ((unanswering_good c hc).2.trans n.symm), fun _ => b, rfl⟩, unanswering_not _ m c hc⟩)⟩

/-- A reply of that cycle, in the words of the statements. -/
theorem good_of {s : State} {heard : Nat → Prop} {cell : Nat} {c : List Byte} (h : heard cell)
    (g : goodReturnOf asked c) (n : s.ring.state = .running → numAt c 5 = s.nodes.count.val)
    (b : s.ring.heal + 1 < s.ring.healCount) :
    ∃ g, s.returnsGood asked [] heard c (.returnEvaluation cell ⟨c, []⟩) g :=
  ⟨_, ⟨cell, h, rfl⟩, g, fun e => .inl (n e), fun _ => b, rfl⟩

/-- A NUMBER is outstanding after `k` failed attempts, with or without a retained table. -/
def numbering (k : Nat) (latency : Option Nat) (retained : Option Retained := none) : State :=
  let s := outstanding .numbering (.numbering k)
    { user := .numbering, message := .number 0, failed := 0, limit := 3 } none calm
  { s with ring := { s.ring with latency := latency }, nodes := { s.nodes with retained := retained } }

theorem witness_NumberingCountsNodes :
    (∀ k ∈ [0, 1, 2], (numbering k none).ring.state = .numbering ∧
      (numbering k none).nodes.procedure = .numbering k ∧ (numbering k none).turnover.inFlight = false ∧
      (numbering k none).nodes.retained = none ∧
      ((numbering k none (some reconcilingTable)).nodes.retained ≠ none)) ∧
    ([numberReturn, numberNone, numberMany].map fun c => (octetAt c 7, octetAt c 9, numAt c 10)) =
      [(1, 9, 15 + 1), (1, 9, 0 + 1), (1, 9, 16 + 1)] := by decide +kernel

theorem witness_NumberingCountsNodes_attempts (k : Nat) (l : Option Nat) :
    (numbering k l).attempts asked [] { user := .numbering, message := .number 0, failed := 0, limit := 3 }
        attempt9 ∧ (numbering k l).nothingListed asked :=
  ⟨⟨rfl, rfl, rfl, rfl, rfl⟩, nothingListed_of rfl rfl⟩

/-- Marks at the edges of the window, with L unknown and known, and the attempts that fail. -/
theorem witness_NumberingCountsNodes_fails (k : Nat) :
    (numbering k none).ring.hears asked 100 ∧ (numbering k none).ring.hears asked 4196 ∧
      (numbering k (some 300)).ring.hears asked 464 ∧
      ∀ c ∈ unanswering, ∃ g, (numbering k (some 300)).failsAttempt asked []
        { user := .numbering, message := .number 0, failed := 0, limit := 3 } attempt9
        ((numbering k (some 300)).ring.hears asked) (.returnEvaluation 336 ⟨c, []⟩) g :=
  ⟨⟨by decide, .inl ⟨rfl, by decide⟩⟩, ⟨by decide, .inl ⟨rfl, by decide⟩⟩,
    ⟨by decide, .inr ⟨300, rfl, by decide, by decide⟩⟩,
    (fails_of (⟨by decide, .inr ⟨300, rfl, by decide, by decide⟩⟩ :
        (numbering k (some 300)).ring.hears asked 336) rfl (by show 0 + 1 < 3; decide)
      (by show 0 + 1 < 4; decide) (by show Message.number 0 ∈ messagesAsked; decide)).2.2.2⟩

/-- A NUMBER that comes back with its mark late, and counts too many, leaves L (R96, R133). -/
theorem test_failed_numbering_keeps_latency :
    ((numbering 0 (some 300)).follow asked numberMany 340 = numbering 0 (some 300)) ∧
      ((numbering 0 (some 300)).evaluate asked (.good numberMany) 340 []).ring.latency = some 300 := by
  have h : (numbering 0 (some 300)).numbers asked = true := by decide +kernel
  exact ⟨State.follow_of_numbers h _ _, by decide +kernel⟩

/-- Distribution waits for the answer to its first message, with attempts left or spent. -/
def distributionTo (m : Message) (failed : Nat) (s : State) : State :=
  outstanding .running .idle { user := .distribution, message := m, failed := failed, limit := 3 } none s

theorem witness_DistributionConcludes :
    (∀ s ∈ [distributionTo (.tapload 0 1 1 1 []) 2 loading, distributionTo (.tapload 0 1 1 1 []) 3 loading,
        distributionTo (.keep 1 1) 3 keeping],
      s.ring.state = .running ∧ s.turnover.state = .distributing ∧ s.plans.outgoing ≠ none ∧
      s.mover.delivery = [] ∧ s.mover.retiredDelivery = none) ∧
    loading.turnover.work.map (fun w => (w.position, w.mark, w.parts, w.next, w.outcome)) =
      [(0, .load, 1, 1, .opened), (1, .keep, 1, 1, .opened), (2, .load, 1, 1, .opened),
        (3, .load, 1, 1, .opened), (4, .keep, 1, 1, .opened), (5, .load, 1, 1, .opened)] ∧
    (∀ p : Pos, p.val < 6 → (loading.node p).state = .ready) ∧
    ([loadack1, nak1, keepack2].map fun c => (octetAt c 7, numAt c 8, octetAt c 9, octetAt c 10, numAt c 11)) =
      [(0x21, posNum 0, 9, epochOctet 1, 1), (0x23, posNum 0, 9, epochOctet 1, 1),
        (0x22, posNum 1, 9, epochOctet 1, 0)] := by decide +kernel

/-- The replies and the failed attempts of a distribution, with attempts left or spent. -/
theorem witness_DistributionConcludes_returns : ∀ failed ∈ [2, 3],
    let x : Exchange := { user := .distribution, message := .tapload 0 1 1 1 [], failed := failed, limit := 3 }
    let s := distributionTo (.tapload 0 1 1 1 []) failed loading
    s.ring.hearsAtLatency asked 400 ∧
      (∀ c ∈ [loadack1, nak1], ∃ g,
        s.returnsGood asked [] (s.ring.hearsAtLatency asked) c (.returnEvaluation 400 ⟨c, []⟩) g) ∧
      ∀ c ∈ unanswering, ∃ g,
        s.failsAttempt asked [] x attempt9 (s.ring.hearsAtLatency asked) (.returnEvaluation 400 ⟨c, []⟩) g := by
  intro failed _ x s
  have h : s.ring.hearsAtLatency asked 400 := ⟨by decide, by show loading.ring.latency = some 300; decide +kernel⟩
  have b : s.ring.heal + 1 < s.ring.healCount := by
    show loading.ring.heal + 1 < loading.ring.healCount; decide +kernel
  have n : s.nodes.count.val = 6 := by show loading.nodes.count.val = 6; decide +kernel
  refine ⟨h, fun c hc => good_of h (test_replies_are_good c ?_) (fun _ => ?_) b,
    (fails_of h n ?_ b (by show Message.tapload 0 1 1 1 [] ∈ messagesAsked; decide)).2.2.2⟩
  · simp only [List.mem_cons, List.not_mem_nil, or_false] at hc ⊢; tauto
  · rw [n]; revert c; decide +kernel
  · show loading.ring.misses + 1 < loading.ring.missLimit; decide +kernel

/-- A refresh of node 3 waits for its answer, its attempts spent or not, ended or not. -/
def refreshing (failed : Nat) (ended : Bool) : State :=
  outstanding .running .idle { user := .refresh, message := .tapload 2 0 1 1 [], failed := failed, limit := 3 }
    (some (refresh3 ended)) staleState

theorem witness_RefreshConcludes :
    (∀ failed ∈ [2, 3], ∀ ended ∈ [false, true], let s := refreshing failed ended
      s.ring.state = .running ∧ s.turnover.inFlight = false ∧
      s.control.refresh = some (refresh3 ended) ∧ (s.node 2).state = .stale ∧
      (s.node 2).failures = 3 ∧ s.turnover.state ≠ .distributing ∧ s.admission.internal = [] ∧
      s.mover.delivery = [] ∧ s.mover.retiredDelivery = none) ∧
    (let s : State := { refreshing 2 true with turnover := distributing.turnover }
    s.turnover.state = .distributing ∧ s.turnover.inFlight = true ∧
      (∃ w ∈ s.turnover.work, w.outcome = .opened ∧ (s.node w.position).state = .ready)) ∧
    ([loadack3, nak3].map fun c => (octetAt c 7, numAt c 8, octetAt c 9, octetAt c 10, numAt c 11)) =
      [(0x21, posNum 2, 9, epochOctet 0, 1), (0x23, posNum 2, 9, epochOctet 0, 1)] := by decide +kernel

/-- The replies and the failed attempts of a refresh. -/
theorem witness_RefreshConcludes_returns : ∀ failed ∈ [2, 3], ∀ ended,
    let x : Exchange := { user := .refresh, message := .tapload 2 0 1 1 [], failed := failed, limit := 3 }
    let s := refreshing failed ended
    (∀ c ∈ [loadack3, nak3], ∃ g,
        s.returnsGood asked [] (s.ring.hearsAtLatency asked) c (.returnEvaluation 400 ⟨c, []⟩) g) ∧
      ∀ c ∈ unanswering, ∃ g,
        s.failsAttempt asked [] x attempt9 (s.ring.hearsAtLatency asked) (.returnEvaluation 400 ⟨c, []⟩) g := by
  intro failed _ ended x s
  have h : s.ring.hearsAtLatency asked 400 := ⟨by decide, rfl⟩
  have b : s.ring.heal + 1 < s.ring.healCount := by show 0 + 1 < 4; decide
  refine ⟨fun c hc => good_of h (test_replies_are_good c ?_) (fun _ => ?_) b,
    (fails_of h rfl (by show 0 + 1 < 3; decide) b
      (by show Message.tapload 2 0 1 1 [] ∈ messagesAsked; decide)).2.2.2⟩
  · simp only [List.mem_cons, List.not_mem_nil, or_false] at hc ⊢; tauto
  · rw [show s.nodes.count.val = 6 from rfl]; revert c; decide +kernel

/-- A refresh that a freeze has ended still records the epoch, and the node stays STALE (R125). -/
theorem test_ended_refresh_records_epoch :
    ((refreshing 2 true).evaluate asked (.good loadack3) 300 []).node 2 =
      { readyNode 0 with state := .stale, failures := 3 } ∧
    (({ refreshing 2 true with
        nodes :=
          { staleState.nodes with
            entries := staleState.nodes.entries.set 2 { readyNode 5 with state := .stale } } } : State).evaluate
        asked (.good loadack3) 300 []).node 2 = { readyNode 0 with state := .stale } := by decide +kernel

/-- The fourth failure makes the node LOST and queues its entry (R124). -/
theorem test_fourth_refresh_failure :
    (after .returnWindowExpiry (refreshing 3 false)).node 2 = { readyNode 0 with state := .lost, failures := 4 } ∧
      (after .returnWindowExpiry (refreshing 3 false)).admission.internal = [.lost 2] := by decide +kernel

/-- An IDENTIFY to a position is outstanding, its attempts spent. -/
def asking' (u : User) (st : RingState) (t : Procedure) (p : Pos) : State :=
  outstanding st t { user := u, message := .identify p, failed := 3, limit := 3 } none layoutState

theorem saysIdentity_identity3 : saysIdentity identity3 { sequence := 9, count := 4 } 2
    { cls := 1, revision := 1, serial := 7, capacity := 32 } (some 0) := by
  unfold saysIdentity; decide +kernel

theorem saysIdentity_stranger3 : saysIdentity stranger3 { sequence := 9, count := 4 } 2
    { cls := 2, revision := 3, serial := 8, capacity := 64 } none := by
  unfold saysIdentity; decide +kernel

theorem saysIdentity_identity6 : saysIdentity identity6 { sequence := 9, count := 4 } 5
    { cls := 1, revision := 1, serial := 7, capacity := 8 } (some 0) := by
  unfold saysIdentity; decide +kernel

theorem witness_IdentificationConcludes :
    (∀ p ∈ [(2 : Pos), 5],
      let s := asking' .identification .identifying (.identifying p) p
      s.ring.state = .identifying ∧ s.nodes.procedure = .identifying p ∧ s.turnover.inFlight = false ∧
        s.ring.latency = some 300 ∧ s.mover.delivery = [] ∧ s.mover.retiredDelivery = none ∧
        s.nodes.count.val = 6 ∧ s.nodes.retained = none) ∧ 3 < 3 + 1 := by decide +kernel

theorem witness_VerificationConcludes :
    let s := asking' .verification .running (.verifying [2, 4]) 2
    s.ring.state = .running ∧ s.nodes.procedure = .verifying (2 :: [4]) ∧ s.turnover.inFlight = false ∧
      s.mover.delivery = [] ∧ s.mover.retiredDelivery = none ∧
      (s.node 2).identity = some { cls := 1, revision := 1, serial := 7, capacity := 32 } ∧
      (s.node 4).state = .ready ∧ [(4 : Pos)].Nodup := by decide +kernel

/-- A verification round runs ahead of a distribution of which nothing has been sent, its first IDENTIFY with no
attempts left, after which it has `l` to ask. -/
def verifyingAhead (l : List Pos) : State :=
  outstanding .running (.verifying (0 :: l))
    { user := .verification, message := .identify 0, failed := 3, limit := 3 } none loading

theorem witness_VerificationConcludes_distributing :
    (verifyingAhead []).turnover.state = .distributing ∧ (verifyingAhead []).nothingListed asked ∧
      (verifyingAhead []).attempts asked []
        { user := .verification, message := .identify 0, failed := 3, limit := 3 } attempt9 ∧
      ((verifyingAhead []).node 0).state = .ready ∧
      ∃ g, (verifyingAhead []).failsAttempt asked []
        { user := .verification, message := .identify 0, failed := 3, limit := 3 } attempt9
        ((verifyingAhead []).ring.hearsAtLatency asked) .returnWindowExpiry g :=
  ⟨by decide +kernel, nothingListed_of (by decide +kernel) (by decide +kernel), ⟨rfl, rfl, rfl, rfl, rfl⟩,
    by decide +kernel, _, .inl ⟨fun _ => by show loading.ring.misses + 1 < loading.ring.missLimit; decide +kernel,
      none, missedBy_expiry, rfl⟩⟩

/-- The node that does not answer becomes STALE, and its work item, the first, is SKIPPED (R78, R104). -/
theorem test_verification_skips_item :
    let t := after .returnWindowExpiry (verifyingAhead [])
    t.turnover.state = .distributing ∧
      t.turnover.work.map (·.outcome) = [.skipped, .opened, .opened, .opened, .opened, .opened] := by
  decide +kernel

/-- With every node STALE every item is SKIPPED at the next return, and the state is SWITCHING (R78, R79). -/
theorem test_all_skipped_switches :
    let s : State := { loading with
      ring := { loading.ring with sent := [{ asked with awaits := false }] }
      nodes := { loading.nodes with entries := loading.nodes.entries.map NodeEntry.toStale } }
    let t := after .returnWindowExpiry s
    t.turnover.state = .switching ∧ t.turnover.work.all (fun w => w.outcome == .skipped) = true := by
  decide +kernel

/-- The identities and the failed attempts, of identification and of verification. -/
theorem witness_identity_returns : ∀ st ∈ [RingState.identifying, .running],
    let x (u : User) (failed : Nat) : Exchange :=
      { user := u, message := .identify 2, failed := failed, limit := 3 }
    let s := asking' .verification st (.verifying [2, 4]) 2
    (∀ c ∈ [identity3, stranger3], ∃ g,
        s.returnsGood asked [] (s.ring.hearsAtLatency asked) c (.returnEvaluation 400 ⟨c, []⟩) g) ∧
      ∀ u failed, ∀ c ∈ unanswering, ∃ g,
        s.failsAttempt asked [] (x u failed) attempt9 (s.ring.hearsAtLatency asked)
          (.returnEvaluation 400 ⟨c, []⟩) g := by
  intro st _ x s
  have h : s.ring.hearsAtLatency asked 400 := ⟨by decide, rfl⟩
  have b : s.ring.heal + 1 < s.ring.healCount := by show 0 + 1 < 4; decide
  refine ⟨fun c hc => good_of h (test_replies_are_good c ?_) (fun _ => ?_) b,
    fun u failed => (fails_of h rfl (by show 0 + 1 < 3; decide) b
      (by show Message.identify 2 ∈ messagesAsked; decide)).2.2.2⟩
  · simp only [List.mem_cons, List.not_mem_nil, or_false] at hc ⊢; tauto
  · rw [show s.nodes.count.val = 6 from rfl]; revert c; decide +kernel

/-- Another serial halts the ring, and the positions not yet asked become STALE (R141, R142). -/
theorem test_verification_of_stranger :
    let t := (asking' .verification .running (.verifying [2, 4]) 2).evaluate asked (.good stranger3) 300 []
    t.ring.state = .halted ∧ (t.node 4).state = .stale ∧ (t.node 2).state = .ready := by decide +kernel

/-- A ring in a state with a heal run, awaiting one cycle. -/
def mending (st : RingState) (heal shape : Nat) : State :=
  { layoutState with
    ring := { layoutState.ring with state := st, heal := heal, shape := shape, sent := [asked] } }

theorem witness_RingHealsOrHalts :
    (∀ s ∈ [mending .broken 0 0, mending .broken 7 0, mending .running 0 0, mending .running 0 1],
      s.ring.sent = asked :: [] ∧ s.ring.latency = some 300 ∧ s.control.exchange = none ∧
      s.mover.delivery = [] ∧ s.mover.retiredDelivery = none ∧
      s.nodes.procedure.left.Nodup ∧ numAt silent6 5 = s.nodes.count.val ∧
      numAt silent7 5 ≠ s.nodes.count.val) ∧
    ((mending .broken 0 0).ring.heal + 1 < (mending .broken 0 0).ring.healCount) ∧
    ((mending .broken 7 0).ring.healCount ≤ (mending .broken 7 0).ring.heal + 1) ∧
    (let s := { verifyingAhead [3, 1] with ring := { (verifyingAhead [3, 1]).ring with shape := 1 } }
    s.control.exchange.map (·.user) = some .verification ∧ s.nodes.procedure.left = [0, 3, 1] ∧
      s.turnover.inFlight = true) := by decide +kernel

/-- A damaged return with a good header check and the hop count of seven nodes. -/
def damaged7 : List Byte := written [0, 0, 4, 7, 0] [] 0xF5 [1] [0xB7, 0x1D]

theorem witness_RingHealsOrHalts_shapes : ∀ c ∈ [silent6, silent7, damaged7],
    headerGood c = true ∧ isBeacon c = false ∧ countOf c = asked.count ∧
      (mending .running 0 1).ring.hearsAtLatency asked 400 ∧ (mending .running 0 1).decidesNothing asked := by
  have e : ∀ c ∈ [silent6, silent7, damaged7],
      headerCheck c = octetAt c 23 ∧ isBeacon c = false ∧ countOf c = 4 := by decide +kernel
  exact fun c h => ⟨headerGood_of (e c h).1, (e c h).2.1, (e c h).2.2, ⟨by decide, rfl⟩, .inl rfl⟩

/-- The second shape mismatch in a row, in a verification round: the positions left in the round become STALE and
are told so before the ring's new state, and the turnover is abandoned (R83, R99, R142). -/
theorem test_second_mismatch_halts :
    let s := { verifyingAhead [3, 1] with ring := { (verifyingAhead [3, 1]).ring with shape := 1 } }
    let t := s.engine asked (.good silent7)
    t.ring.state = .halted ∧ t.turnover.state = .waiting ∧ t.control.exchange = none ∧
      ((t.port 1).responses.drop (s.port 1).responses.length) =
        [.notice (.nodeState 0 .stale (some 0) 0 .verification),
          .notice (.nodeState 3 .stale (some 0) 0 .verification),
          .notice (.nodeState 1 .stale (some 0) 0 .verification), .notice (.ringState .halted 0 .shape)] := by
  intro s t
  have h : hopOf asked silent7 = some 7 := by
    rw [hopOf, (test_replies_are_good silent7 (by simp)).1]; decide +kernel
  have r : t = s.returnInRunning (hopOf asked silent7) := rfl
  rw [r, h]; decide +kernel

/-! ## Witnesses: sessions, events, the ring protocol -/

/-- Port 0's lease runs, and its lapse is due or not; an item is in processing or not. -/
def leased (due : Bool) (item : Option Item) : State :=
  let s := sharedState.modPort 0 fun h => { h with leaseTimer := some 327680, lapseDue := due }
  { s with admission := { s.admission with processing := item } }

/-- The port of `working` that has departed, its item over. -/
def departedDue : State :=
  ({ working with admission := { working.admission with processing := none } } : State).modPort 0 fun h =>
    { h with state := .detached }

theorem witness_LapseEndsSession :
    (∀ due ∈ [true, false], ∀ item ∈ [none, some (.frame 0 [3, 1, 0x11]), some (.frame 1 [3, 1, 0x11])],
      ((leased due item).port 0).leaseTimer ≠ none ∧ ((leased due item).port 0).attached = true ∧
        ((leased due item).port 0).lapseDue = due ∧ (leased due item).admission.processing = item) ∧
      (∀ q, q ≠ 0 → ((leased true none).port q).lapseDue = false) ∧
      ((departedDue.port 0).attached = false ∧ (departedDue.port 0).lapseDue = true ∧
        departedDue.admission.processing = none) ∧
      (working.admission.processing = some (.frame 0 (frameOf 1 0x11 [])) ∧
        (working.port 0).lapseDue = true ∧ (working.port 0).txn = none ∧
        (working.port 0).heldOver = false ∧ working.nresetLow = false) := by decide +kernel

/-- An expiry ends the session at once, and while an item of the port is in processing only marks the lapse
due (R43, R172). -/
theorem test_lease_expiry :
    ((after (.leaseExpiry 0) (leased false none)).port 0).state = .lapsed ∧
      (after (.leaseExpiry 0) (leased false none)).admission.internal = [.port 0] ∧
      (let t := after (.leaseExpiry 0) (leased false (some (.frame 0 [3, 1, 0x11])))
      (t.port 0).state = .attached ∧ (t.port 0).lapseDue = true ∧ (t.port 0).leaseTimer = none) := by
  decide +kernel

/-- No transaction carries out a lapse that waits for an item, and the REQUEST completed meanwhile joins the
queue once the lapse is over (R171, R172). -/
theorem test_transaction_waits_for_lapse :
    let t := after (.status 0 (txnBits 5 0 []) true) working
    (t.port 0).state = .attached ∧ (t.port 0).lapseDue = true ∧
      (let u := after (.lapse 0) { t with admission := { t.admission with processing := none } }
      (u.port 0).state = .lapsed ∧ (u.port 0).requests = [frameOf 1 0x11 []] ∧ (u.port 0).ended = []) := by
  decide +kernel

/-- Once a lease has expired no frame is taken before the lapse: a request's turn carries the lapse out, and
the frames of the port are discarded (R43). -/
theorem test_no_frame_after_lease_expiry :
    let s := asking 0 (frameOf 1 0x10 [0]) (leased true none)
    let t := after .streamQuery s
    s.pick = none ∧ (t.port 0).state = .lapsed ∧ (t.port 0).requests = [] ∧ (t.port 0).responses = [] ∧
      t.admission.internal = [.port 0] := by decide +kernel

theorem witness_EventsAndNotices :
    (departed.port 1).attached = false ∧ (calm.port 1).attached = true ∧
      ((calm.port 1).events.kinds.get 4).pending = false ∧
      ((servicing [.response] []).port 2).attached = true ∧
      (((servicing [.response] []).port 2).events.kinds.get 4).pending = true ∧
      8 ≤ (laden.port 2).responses.length + (if (laden.port 2).reserved then 1 else 0) := by
  decide +kernel

/-- A node at position 3 with a capacity of three taps. -/
def chip3 : NodeChip :=
  { NodeChip.powered { cls := 1, revision := 1, serial := 7, capacity := 3 } with
    position := some 2, held := some 4 }

theorem witness_TaploadBuildsPendingPlan :
    let tap : Tap := { page := 7, role := .write, offset := 222, length := 2, stream := 47 }
    let tap' : Tap := { page := 0, role := .read, offset := 0, length := 33, stream := 0 }
    chip3.position = some 2 ∧ [tap, tap', tap].length ≤ 3 ∧ 3 ≤ chip3.identity.capacity ∧
      (∀ t ∈ [tap, tap', tap], t.offset ≤ 222 ∧ t.length ≤ 33) := by decide

/-- Three parts of five held, as the parts 2, 3, 4 and 5 find them. -/
theorem witness_TaploadBuildsPendingPlan_parts :
    let tap : Tap := { page := 7, role := .write, offset := 222, length := 2, stream := 47 }
    let q : PendingPlan := { epoch := 4, parts := 5, received := 3, taps := [] }
    let n : NodeChip := { chip3 with pending := some q }
    n.pending = some q ∧ (∀ part ∈ [2, 3], 2 ≤ part ∧ part ≤ q.received) ∧ 4 = q.received + 1 ∧
      (q.taps ++ []).length ≤ n.identity.capacity ∧ q.received + 1 < 5 ∧
      n.identity.capacity < (List.replicate 4 tap).length := by decide

/-- A part that the node already holds, the last or an earlier one, is acknowledged again and changes nothing; a part
it does not hold out of turn is refused (R92, R121). -/
theorem test_part_held_again :
    let plan : PendingPlan := { epoch := 4, parts := 5, received := 3, taps := [] }
    let n : NodeChip := { chip3 with pending := some plan }
    n.load 4 2 5 [] = (some plan, true) ∧ n.load 4 3 5 [] = (some plan, true) ∧
      n.load 4 5 5 [] = (none, false) ∧ n.load 4 2 6 [] = (none, false) ∧ n.load 5 2 5 [] = (none, false) := by
  decide +kernel

/-- A hub cycle of epoch 5 that carries no message, whole and with a spoiled header check. -/
def passing : List Byte := written [5, 0, 77, 0, 0] [] 0x81 [] [0xB7, 0x1D]
def spoiled : List Byte := written [5, 0, 77, 0, 0] [] 0x80 [] [0xB7, 0x1D]

theorem test_header_checks : headerGood passing = true ∧ headerGood spoiled = false :=
  ⟨headerGood_of (by decide +kernel), headerBad_of (by decide +kernel)⟩

/-- The same cycle with a QUIET field. -/
def quieting5 : List Byte := written [5, 0, 77, 0, 0] [2] 0x85 [] [0xB7, 0x1D]

/-- A node that holds epoch 5 and writes stream 1 at the end of page 5. -/
def writer : NodeChip :=
  { chip3 with
    held := some 5
    taps := [{ page := 5, role := .write, offset := 222, length := 2, stream := 1 },
      { page := 5, role := .read, offset := 0, length := 33, stream := 2 }]
    outputs := Table.fill { fresh := true, sequence := 14, sample := [0xAB] } }

/-- A node with a whole plan pending for another epoch. -/
def waiting6 : NodeChip :=
  { chip3 with pending := some { epoch := 6, parts := 2, received := 2, taps := [] } }

theorem witness_NodeWritesOnlyItsEpoch :
    passing.length = 256 ∧ spoiled.length = 256 ∧ beacon4.length = 256 ∧ isBeacon beacon4 = true ∧
      isBeacon passing = false ∧ octetAt passing 7 = 0 ∧ octetAt quieting5 7 = 0x02 ∧
      chip3.held ≠ some (epochOf passing) ∧ chip3.pending = none ∧
      (waiting6.pending = some { epoch := 6, parts := 2, received := 2, taps := [] } ∧
        waiting6.held ≠ some (epochOf passing) ∧ 6 ≠ epochOf passing) ∧
      (writer.held = some (epochOf passing) ∧ writer.pending = none ∧
        (writer.taps.filter fun u => u.page == cyclePage passing && u.role == .write) =
          [{ page := 5, role := .write, offset := 222, length := 2, stream := 1 }] ∧
        ∀ t ∈ writer.taps, t.role = .write → 2 ≤ t.length ∧ t.offset + t.length ≤ 224) := by
  decide +kernel

/-- A slot is as long as its tap, whatever the length of the node's sample (R91; log 39). -/
theorem test_slot_length (o : NodeOutput) (tag : BitVec 2) (n : Nat) (h : 1 ≤ n) :
    (o.slot tag n).length = n := by
  simp [NodeOutput.slot, NodeOutput.payload, padTo]; omega

/-- A FRESH slot goes out under the next sequence and the tag of the held epoch (R91, R150). -/
theorem test_write_tap :
    (writer.write passing).2.drop 221 = [0, slotStatus 1 15 1, 0xAB] ∧
      (writer.write passing).1.outputs.get 1 = { fresh := false, sequence := 15, sample := [0xAB] } := by
  decide +kernel

end Sys2Proof.Tests
end

section
/-! SUPPORT. What every operation keeps of a port's authority, threshold and gap counters. -/

namespace Sys2Proof.Machine

/-- A port's threshold and its gap counters are in their ranges (R155, R177). -/
def HostPort.ranged (h : HostPort) : Prop :=
  (1 ≤ h.events.threshold ∧ h.events.threshold ≤ 4096) ∧ ∀ id, h.gaps.get id ≤ 255

/-- What a port becomes keeps its authority, and its threshold and gap counters in their ranges (R155, R174,
R177). -/
def HostPort.staysRanged (h h' : HostPort) : Prop := h'.authority = h.authority ∧ (h.ranged → h'.ranged)

@[simp] theorem EventUnit.take_threshold (e : EventUnit) : e.take.1.threshold = e.threshold := by
  unfold EventUnit.take; dsimp only; repeat' split
  all_goals rfl
@[simp] theorem EventUnit.serviceDone_threshold (e : EventUnit) :
    e.serviceDone.1.threshold = e.threshold := by
  unfold EventUnit.serviceDone; split <;> rfl

namespace HostPort

theorem staysRanged_refl (h : HostPort) : h.staysRanged h := ⟨rfl, id⟩

theorem staysRanged.trans {a b c : HostPort} (h : a.staysRanged b) (h' : b.staysRanged c) : a.staysRanged c :=
  ⟨h'.1.trans h.1, h'.2 ∘ h.2⟩

/-- A port that keeps threshold and gap counters keeps them in their ranges. -/
theorem staysRanged_of_same {h h' : HostPort} (auth : h'.authority = h.authority)
    (threshold : h'.events.threshold = h.events.threshold) (gaps : h'.gaps = h.gaps) : h.staysRanged h' :=
  ⟨auth, fun r => by rw [ranged, threshold, gaps]; exact r⟩

/-- New gap counters within 255 keep a port in its ranges (R155). -/
theorem staysRanged_of_gaps {h h' : HostPort} (auth : h'.authority = h.authority)
    (threshold : h'.events.threshold = h.events.threshold)
    (gaps : (∀ id, h.gaps.get id ≤ 255) → ∀ id, h'.gaps.get id ≤ 255) : h.staysRanged h' :=
  ⟨auth, fun r => ⟨threshold ▸ r.1, gaps r.2⟩⟩

@[simp] theorem postNode_threshold (h : HostPort) (n : Notice) :
    (h.postNode n).events.threshold = h.events.threshold := by simp [postNode]
@[simp] theorem placeAnswer_threshold (h : HostPort) (tag kind : Byte) (r : Reply) :
    (h.placeAnswer tag kind r).events.threshold = h.events.threshold := by simp [placeAnswer]
@[simp] theorem ringChanged_threshold (h : HostPort) (st : RingState) (b : Fin 17) (r : RingReason) :
    (h.ringChanged st b r).events.threshold = h.events.threshold := by simp [ringChanged]
@[simp] theorem takeFrame_threshold (h : HostPort) (l : List Byte) :
    (h.takeFrame l).events.threshold = h.events.threshold := by unfold takeFrame; split <;> simp

theorem raise_staysRanged (h : HostPort) (k : EventKind) : h.staysRanged (h.raise k) :=
  staysRanged_of_same (by simp) (by simp) (by simp)

theorem post_staysRanged (h : HostPort) (n : Notice) : h.staysRanged (h.post n) :=
  staysRanged_of_same (by simp) (by simp) (by simp)

theorem postNode_staysRanged (h : HostPort) (n : Notice) : h.staysRanged (h.postNode n) :=
  staysRanged_of_same (by simp) (by simp) (by simp)

theorem ringChanged_staysRanged (h : HostPort) (st : RingState) (b : Fin 17) (r : RingReason) :
    h.staysRanged (h.ringChanged st b r) :=
  staysRanged_of_same (by simp) (by simp) (by simp)

/-- A good EVENTSET carries a threshold of 1 to 4096 (R184). -/
theorem eventsetGood_threshold {taken : List Byte} (h : eventsetGood taken = true) :
    1 ≤ 256 * numAt taken 2 + numAt taken 3 ∧ 256 * numAt taken 2 + numAt taken 3 ≤ 4096 := by
  simp only [eventsetGood, Bool.and_eq_true, decide_eq_true_eq] at h
  exact h.2

theorem takeEventset_staysRanged (h : HostPort) (taken : List Byte) : h.staysRanged (h.takeEventset taken) := by
  unfold takeEventset
  split
  · split
    · next hg => exact ⟨rfl, fun r => ⟨eventsetGood_threshold hg, r.2⟩⟩
    · exact raise_staysRanged h _
  · exact staysRanged_refl h

theorem finish_staysRanged (h : HostPort) (t : Txn) : h.staysRanged (h.finish t) := by
  have touch (g : HostPort) (hg : h.staysRanged g) : h.staysRanged g.touchLease :=
    hg.trans (staysRanged_of_same (by simp) (by simp) (by simp))
  unfold finish
  apply touch
  split
  · exact staysRanged_of_same (by simp) (by simp) (by simp)
  · exact takeEventset_staysRanged h _
  · exact raise_staysRanged h _
  all_goals exact staysRanged_refl h

/-- A session end puts the threshold at 1 and the gap counters at 0 (R172, R177). -/
theorem endSession_staysRanged (h : HostPort) : h.staysRanged h.endSession :=
  ⟨rfl, fun _ => ⟨⟨Nat.le_refl 1, (by decide : 1 ≤ 4096)⟩, fun id => by simp [endSession]⟩⟩

/-- The header's end leaves authority, threshold and gap counters (R162). -/
theorem serve_staysRanged (h : HostPort) (k : TxnKind) (block : List Byte) : h.staysRanged (h.serve k block) := by
  cases k with
  | fetch => unfold serve; dsimp only; split <;> exact staysRanged_of_same rfl rfl rfl
  | take => exact staysRanged_of_same rfl h.events.take_threshold rfl
  | serviceDone => exact staysRanged_of_same rfl h.events.serviceDone_threshold rfl
  | _ => exact staysRanged_of_same rfl rfl rfl

theorem endOctet_staysRanged (h : HostPort) (block : HostPort → List Byte) (t : Txn) (b : Byte) :
    h.staysRanged (h.endOctet block t b) := by
  unfold endOctet
  split
  · exact serve_staysRanged h _ _
  all_goals exact staysRanged_of_same rfl rfl rfl

theorem clockBit_staysRanged (block : HostPort → List Byte) (h : HostPort) (b : Bool) :
    h.staysRanged (h.clockBit block b) := by
  unfold clockBit
  split
  · exact staysRanged_refl h
  · dsimp only
    split
    · exact (staysRanged_of_same (h := h) rfl rfl rfl).trans (endOctet_staysRanged _ _ _ _)
    · exact staysRanged_of_same rfl rfl rfl

theorem clockBits_staysRanged (block : HostPort → List Byte) (l : List Bool) (h : HostPort) :
    h.staysRanged (l.foldl (clockBit block) h) := by
  induction l generalizing h with
  | nil => exact staysRanged_refl h
  | cons b l ih => exact (clockBit_staysRanged block h b).trans (ih _)

theorem select_staysRanged (h : HostPort) (running : Bool) : h.staysRanged (h.select running) := by
  unfold select; split <;> exact staysRanged_of_same rfl rfl rfl

/-- A gap counter raised stops at 255 (R155). -/
theorem countGap_staysRanged (h : HostPort) (id : StreamId) : h.staysRanged (h.countGap id) := by
  refine staysRanged_of_gaps rfl rfl fun hg j => ?_
  simp only [countGap, Table.get_modify]
  split
  · exact Nat.min_le_left _ _
  · exact hg j

theorem deliver_staysRanged (h : HostPort) (x : Record) : h.staysRanged (h.deliver x) := by
  unfold deliver
  split
  · refine staysRanged_of_gaps (by simp) (by simp) fun hg j => ?_
    simp only [raiseIf_gaps, Table.get_set]
    split
    · exact Nat.zero_le _
    · exact hg j
  · exact (countGap_staysRanged h _).trans (raise_staysRanged _ _)

theorem receive_staysRanged (h : HostPort) (r : CycleRecord) (cls : ReturnClass) (pl : Placement) :
    h.staysRanged (h.receive r cls pl) := by
  unfold receive
  split
  · split
    · exact deliver_staysRanged h _
    · exact countGap_staysRanged h _
  · exact staysRanged_refl h

theorem switchGaps_staysRanged (h : HostPort) (p : Port) (old new : ViewTable) :
    h.staysRanged (h.switchGaps p old new) := by
  refine staysRanged_of_gaps rfl rfl fun hg j => ?_
  simp only [switchGaps, Table.get_tabulate]
  split
  · exact Nat.zero_le _
  · exact hg j

theorem expire_staysRanged (h : HostPort) : h.staysRanged h.expire := by
  unfold expire; split <;> exact staysRanged_of_same rfl rfl rfl

end HostPort
end Sys2Proof.Machine
end

section
/-! SUPPORT. The operations that move no counter, quota or plan in force: `State.calm`. -/

namespace Sys2Proof.Machine

/-- Quotas, ticket counter, gather counter, the plan in force and the Ring Engine but for its records, L and
late marks are as they were, and every port keeps its authority and its ranges. -/
structure State.calm (s t : State) : Prop where
  quotas : t.admission.quotas = s.admission.quotas
  ticket : t.admission.ticket = s.admission.ticket
  gather : t.turnover.gather = s.turnover.gather
  plan   : t.plans.inForce = s.plans.inForce
  ring   : t.ring =
    { s.ring with sent := t.ring.sent, latency := t.ring.latency, beaconed := t.ring.beaconed }
  ports  : ∀ q, (s.port q).staysRanged (t.port q)

namespace State

theorem calm_refl (s : State) : s.calm s := ⟨rfl, rfl, rfl, rfl, rfl, fun _ => HostPort.staysRanged_refl _⟩

theorem calm.trans {s t u : State} (h : s.calm t) (h' : t.calm u) : s.calm u where
  quotas := h'.quotas.trans h.quotas
  ticket := h'.ticket.trans h.ticket
  gather := h'.gather.trans h.gather
  plan := h'.plan.trans h.plan
  ring := by rw [h'.ring, h.ring]
  ports q := (h.ports q).trans (h'.ports q)

/-- An operation on the ports alone is calm when it keeps their ranges. -/
theorem calm_of_ports (s : State) {ports : Table HostPort 4}
    (h : ∀ q, (s.port q).staysRanged (ports.get q)) : s.calm { s with ports := ports } :=
  ⟨rfl, rfl, rfl, rfl, rfl, h⟩

theorem modPort_calm (s : State) (p : Port) (f : HostPort → HostPort)
    (h : (s.port p).staysRanged (f (s.port p))) : s.calm (s.modPort p f) := by
  refine s.calm_of_ports fun q => ?_
  rw [Table.get_modify]
  split
  · next e => subst e; exact h
  · exact HostPort.staysRanged_refl _

/-! ### Notices, batch, exchanges, nodes -/

theorem foldl_modify_staysRanged {α : Type} (l : List α) (port : α → Port) (f : α → HostPort → HostPort)
    (h : ∀ x g, HostPort.staysRanged g (f x g)) (t : Table HostPort 4) (q : Port) :
    (t.get q).staysRanged ((l.foldl (fun ps x => ps.modify (port x) (f x)) t).get q) := by
  induction l generalizing t with
  | nil => exact HostPort.staysRanged_refl _
  | cons x l ih =>
    refine HostPort.staysRanged.trans ?_ (ih _)
    rw [Table.get_modify]
    split
    · exact h x _
    · exact HostPort.staysRanged_refl _

theorem postAll_calm (s : State) (l : List (Port × Notice)) : s.calm (s.postAll l) :=
  s.calm_of_ports <| foldl_modify_staysRanged l Prod.fst (fun x g => g.post x.2)
    (fun _ g => g.post_staysRanged _) s.ports

theorem queueInternal_calm (s : State) (e : InternalEntry) : s.calm (s.queueInternal e) :=
  ⟨rfl, rfl, rfl, rfl, rfl, fun _ => HostPort.staysRanged_refl _⟩

theorem dropExchange_calm (s : State) (which : User → Bool) : s.calm (s.dropExchange which) :=
  ⟨rfl, rfl, rfl, rfl, rfl, fun _ => HostPort.staysRanged_refl _⟩

theorem updateNode_calm (s : State) (p : Pos) (f : NodeEntry → NodeEntry) : s.calm (s.updateNode p f) :=
  ⟨rfl, rfl, rfl, rfl, rfl, fun _ => HostPort.staysRanged_refl _⟩

theorem changeNode_calm (s : State) (p : Pos) (f : NodeEntry → NodeEntry) (c : NodeCause) :
    s.calm (s.changeNode p f c) := by
  refine ⟨rfl, rfl, rfl, rfl, rfl, fun q => ?_⟩
  simp only [port, changeNode]
  split
  · rw [Table.get_map]; exact HostPort.postNode_staysRanged _ _
  · exact HostPort.staysRanged_refl _

theorem changeNodes_calm (s : State) (ps : List Pos) (f : NodeEntry → NodeEntry) (c : NodeCause) :
    s.calm (s.changeNodes ps f c) :=
  changeNodes_induct (P := s.calm) (fun u p h => h.trans (u.changeNode_calm p f c)) ps s s.calm_refl

theorem abandon_calm (s : State) : s.calm s.abandon := by
  unfold abandon
  split
  · exact ⟨rfl, rfl, rfl, rfl, rfl, fun _ => HostPort.staysRanged_refl _⟩
  · exact s.calm_refl

theorem leaveRunning_calm (s : State) (failing : Bool) : s.calm (s.leaveRunning failing) := by
  have fails : s.calm (if failing then s.failVerification else s) := by
    split
    · exact changeNodes_calm _ _ _ _
    · exact s.calm_refl
  unfold leaveRunning
  split
  · refine ((fails.trans (dropExchange_calm _ fun u => u == .verification || u == .refresh)).trans ?_).trans
      (abandon_calm _)
    exact ⟨rfl, rfl, rfl, rfl, rfl, fun _ => HostPort.staysRanged_refl _⟩
  · exact s.calm_refl

theorem endRingWork_calm (s : State) : s.calm s.endRingWork := by
  refine ((s.leaveRunning_calm false).trans (dropExchange_calm _ fun _ => true)).trans ?_
  exact ⟨rfl, rfl, rfl, rfl, rfl, fun _ => HostPort.staysRanged_refl _⟩

/-! ### Transactions and sessions -/

theorem takePost_calm (s : State) (p : Port) (taken : List Byte) : s.calm (s.takePost p taken) := by
  refine ⟨rfl, rfl, rfl, rfl, rfl, fun q => ?_⟩
  refine (s.modPort_calm p (fun h => h.raiseIf (s.judgePost p taken == .rejected) .protocol) ?_).ports q
  exact HostPort.staysRanged_of_same (by simp) (by simp) (by simp)

theorem finish_calm (s : State) (p : Port) (t : Txn) : s.calm (s.finish p t) := by
  unfold finish
  split
  · exact (s.takePost_calm p _).trans (modPort_calm _ _ _ (HostPort.finish_staysRanged _ t))
  · exact modPort_calm _ _ _ (HostPort.finish_staysRanged _ t)

theorem finishEnded_calm (s : State) (p : Port) : s.calm (s.finishEnded p) :=
  finishEnded_induct (P := s.calm) (fun u t h => h.trans (u.finish_calm p t)) s
    (s.modPort_calm p _ (HostPort.staysRanged_of_same rfl rfl rfl))

theorem endSession_calm (s : State) (p : Port) : s.calm (s.endSession p) :=
  ⟨rfl, rfl, rfl, rfl, rfl, (s.modPort_calm p HostPort.endSession (HostPort.endSession_staysRanged _)).ports⟩

theorem lapse_calm (s : State) (p : Port) : s.calm (s.lapse p) := by
  rcases s.lapse_cases p with ⟨-, e⟩ | ⟨-, e⟩ <;> rw [e]
  · refine ((s.endSession_calm p).trans (modPort_calm _ p _ ?_)).trans (finishEnded_calm _ p)
    exact HostPort.staysRanged_of_same rfl rfl rfl
  · exact (s.modPort_calm p _ (HostPort.staysRanged_of_same rfl rfl rfl)).trans (finishEnded_calm _ p)

theorem grantLapse_calm (s : State) (p : Port) : s.calm (s.grantLapse p) := by
  rcases s.grantLapse_cases p with ⟨-, e⟩ | ⟨-, -, e⟩ <;> rw [e]
  · exact s.calm_refl
  · exact s.lapse_calm p

theorem settleLapse_calm (s : State) (p : Port) : s.calm (s.settleLapse p) := by
  unfold settleLapse
  split
  · exact s.lapse_calm p
  · exact s.calm_refl

theorem settleLapses_calm (s : State) : s.calm s.settleLapses :=
  settleLapses_induct (P := s.calm) (fun u p h => h.trans (u.settleLapse_calm p)) s s.calm_refl

theorem clocked_calm (s : State) (p : Port) (bits : List Bool) : s.calm (s.clocked p bits) := by
  refine ⟨rfl, rfl, rfl, rfl, rfl, fun q => ?_⟩
  simp only [port, clocked, Table.get_set]
  split
  · next e =>
    subst e
    exact (HostPort.select_staysRanged _ _).trans (HostPort.clockBits_staysRanged _ _ _)
  · exact HostPort.staysRanged_refl _

theorem release_calm (s : State) (p : Port) : s.calm (s.release p) := by
  have ends : s.calm (s.modPort p fun h => { h with txn := none }) :=
    s.modPort_calm p _ (HostPort.staysRanged_of_same rfl rfl rfl)
  unfold release
  split
  · exact s.calm_refl
  · dsimp only
    split
    · exact ends
    · split
      · exact ends.trans (modPort_calm _ p _ (HostPort.staysRanged_of_same rfl rfl rfl))
      · exact ends.trans (finish_calm _ p _)

theorem transact_calm (s : State) (k : TxnKind) (p : Port) (bits : List Bool) (release : Bool) :
    s.calm (s.transact k p bits release) := by
  unfold transact
  split
  · exact s.modPort_calm p _ (HostPort.staysRanged_of_same rfl rfl rfl)
  · have clocks := (s.grantLapse_calm p).trans (clocked_calm _ p bits)
    dsimp only
    split
    · split
      · exact clocks.trans (release_calm _ p)
      · exact clocks
    · exact s.grantLapse_calm p

/-! ### Items -/

theorem beginItem_calm (s : State) (p : Port) (f : List Byte) : s.calm (s.beginItem p f) :=
  ⟨rfl, rfl, rfl, rfl, rfl, (s.modPort_calm p (fun h => { h with requests := h.requests.tail, reserved := true })
    (HostPort.staysRanged_of_same rfl rfl rfl)).ports⟩

theorem finishItem_calm (s : State) (p : Port) (f : List Byte) (r : Reply) : s.calm (s.finishItem p f r) :=
  ⟨rfl, rfl, rfl, rfl, rfl, (s.modPort_calm p (fun h => h.placeAnswer (frameTag f) (frameKindOctet f) r)
    (HostPort.staysRanged_of_same (by simp) (by simp) (by simp))).ports⟩

theorem takeUnknown_calm (s : State) : s.calm s.takeUnknown := by
  rcases s.takeUnknown_cases with e | ⟨p, f, r, -, -, e⟩ <;> rw [e]
  · exact s.calm_refl
  · exact (s.beginItem_calm p f).trans (finishItem_calm _ p f _)

/-- A request command is calm but for the effect of the request it takes. -/
theorem takeRequest_calm (s : State) (k : RequestKind) (act : Port → List Byte → Effect) :
    s.calm (s.takeRequest k act) ∨
      ∃ p f u, s.calm u ∧ (act p f u).1.calm (s.takeRequest k act) := by
  have settled : s.calm s.settleLapses.settleUnknown :=
    s.settleLapses_calm.trans <|
      takeUnknowns_induct (P := s.settleLapses.calm) (fun u h => h.trans u.takeUnknown_calm) 16 _ (calm_refl _)
  rcases s.takeRequest_cases k act with e | ⟨p, f, -, -, e⟩ <;> rw [e]
  · exact .inl settled
  generalize s.settleLapses.settleUnknown = u at settled
  have begun := settled.trans (u.beginItem_calm p f)
  have ended (act : Effect) : (act (u.beginItem p f)).1.calm (u.runItem p f act) := by
    rcases u.runItem_cases p f act with ⟨r, -, e⟩ | ⟨-, e⟩ <;> rw [e]
    · exact finishItem_calm _ p f r
    · exact calm_refl _
  have done := ended (checked k p f (act p f))
  rcases checked_cases k p f (act p f) (u.beginItem p f) with ⟨-, -, c⟩ | ⟨-, -, c⟩ | ⟨-, -, c⟩ <;> rw [c] at done
  · exact .inl (begun.trans done)
  · exact .inl (begun.trans done)
  · exact .inr ⟨p, f, _, begun, done⟩

/-! ### Returns -/

theorem extract_calm (s : State) (r : CycleRecord) (cls : ReturnClass) (drains : List (List DrainPart)) :
    s.calm (s.extract r cls drains) := by
  unfold extract
  split
  · exact s.calm_refl
  · exact handle_induct (P := s.calm) (fun u d h => h.trans (u.transact_calm _ _ _ _))
      (fun u p pl h => h.trans (u.modPort_calm p _ (HostPort.receive_staysRanged _ _ _ _))) _ _ s s.calm_refl

theorem discardRetired_calm (s : State) : s.calm s.discardRetired :=
  ⟨rfl, rfl, rfl, rfl, rfl, fun _ => HostPort.staysRanged_refl _⟩

theorem advanceWork_calm (s : State) : s.calm s.advanceWork := by
  refine ⟨rfl, rfl, ?_, rfl, rfl, fun _ => HostPort.staysRanged_refl _⟩
  simp only [advanceWork, Turnover.advance]
  split <;> rfl

theorem closeExchange_calm (s : State) : s.calm s.closeExchange :=
  ⟨rfl, rfl, rfl, rfl, rfl, fun _ => HostPort.staysRanged_refl _⟩

theorem retryExchange_calm (s : State) (x : Exchange) : s.calm (s.retryExchange x) :=
  ⟨rfl, rfl, rfl, rfl, rfl, fun _ => HostPort.staysRanged_refl _⟩

theorem modWork_calm (s : State) (f : WorkItem → WorkItem) : s.calm (s.modWork f) :=
  ⟨rfl, rfl, rfl, rfl, rfl, fun _ => HostPort.staysRanged_refl _⟩

/-- What changes in the Control Channel alone is calm. -/
theorem calm_of_control (s : State) (c : Control) : s.calm { s with control := c } :=
  ⟨rfl, rfl, rfl, rfl, rfl, fun _ => HostPort.staysRanged_refl _⟩

/-- What changes in the Node Table alone is calm. -/
theorem calm_of_nodes (s : State) (n : Nodes) : s.calm { s with nodes := n } :=
  ⟨rfl, rfl, rfl, rfl, rfl, fun _ => HostPort.staysRanged_refl _⟩

theorem refreshAcked_calm (s : State) : s.calm s.refreshAcked := by
  unfold refreshAcked
  split
  · exact s.calm_refl
  · dsimp only
    repeat' split
    · exact s.calm_of_control _
    · exact (s.calm_of_control _).trans (updateNode_calm _ _ _)
    · exact s.calm_of_control _
    · exact (s.calm_of_control _).trans (changeNode_calm _ _ _ _)

theorem refreshFailed_calm (s : State) (p : Pos) : s.calm (s.refreshFailed p) := by
  unfold refreshFailed
  dsimp only
  split
  · exact ((s.calm_of_control _).trans (changeNode_calm _ _ _ _)).trans (queueInternal_calm _ _)
  · exact (s.calm_of_control _).trans (updateNode_calm _ _ _)

theorem unverified_calm (s : State) (p : Pos) : s.calm (s.unverified p) :=
  (s.changeNode_calm p _ _).trans (calm_of_nodes _ _)

theorem ackHeard_calm (s : State) (x : Exchange) : s.calm (s.ackHeard x) := by
  unfold ackHeard
  split
  · exact s.closeExchange_calm.trans (modWork_calm _ _)
  · exact s.closeExchange_calm.trans (refreshAcked_calm _)
  all_goals exact s.closeExchange_calm

theorem follow_calm (s : State) (r : CycleRecord) (octets : List Byte) (d : Nat) :
    s.calm (s.follow r octets d) := by
  rcases s.follow_cases r octets d with e | ⟨-, -, -, e⟩ <;> rw [e]
  · exact s.calm_refl
  · exact ⟨rfl, rfl, rfl, rfl, rfl, fun _ => HostPort.staysRanged_refl _⟩

end State
end Sys2Proof.Machine
end

section
/-! SUPPORT. The operations that keep quotas, the plan in force and the ranges: `State.steady`. -/

namespace Sys2Proof.Machine

/-- The quotas and the plan in force are as they were, and every range is kept. -/
structure State.steady (s t : State) : Prop where
  quotas : t.admission.quotas = s.admission.quotas
  plan   : t.plans.inForce = s.plans.inForce
  ranges : s.inRange → t.inRange

/-! ### The Ring Engine's ranges -/

/-- The Ring Engine's counters and parameters are in the ranges they have in every ring state (R98, R99, R100). -/
def Ring.inBounds (r : Ring) : Prop :=
  r.quietLeft ≤ 4 ∧ r.misses ≤ 8 ∧ r.heal ≤ 16 ∧ r.shape ≤ 2 ∧ (1 ≤ r.missLimit ∧ r.missLimit ≤ 8) ∧
    (1 ≤ r.healCount ∧ r.healCount ≤ 16) ∧ r.retryLimit ≤ 7 ∧ r.gatherWindow ≤ 255

/-- In range is in bounds, with what RUNNING and BROKEN add (R98, R99, R104). -/
theorem Ring.inRange_iff {r : Ring} :
    r.inRange ↔ r.inBounds ∧ (r.state = .running → r.misses ≤ 7 ∧ r.shape ≤ 1) ∧
      (r.state = .broken → r.heal ≤ 15) := by
  unfold Ring.inRange Ring.inBounds
  tauto

/-- Entry into any state brings counters in bounds into their ranges (R98, R99, R102, R104). -/
theorem Ring.enter_inRange {r : Ring} (h : r.inBounds) (st : RingState) : (r.enter st).inRange := by
  obtain ⟨hq, hm, hh, hs, hl, hc, hr, hg⟩ := h
  rw [Ring.inRange_iff]
  cases st <;> simp [Ring.enter, Ring.inBounds, *]

/-- The ranges do not look at records, L and late marks. -/
theorem Ring.inRange_congr {r r' : Ring}
    (e : r' = { r with sent := r'.sent, latency := r'.latency, beaconed := r'.beaconed }) :
    r'.inRange ↔ r.inRange := by rw [e]; rfl

theorem Ring.inBounds_congr {r r' : Ring}
    (e : r' = { r with sent := r'.sent, latency := r'.latency, beaconed := r'.beaconed }) :
    r'.inBounds ↔ r.inBounds := by rw [e]; rfl

/-- The ticket after a ticket is again a ticket (R18). -/
theorem nextTicket_ne_zero {t : Ticket} (_ : t ≠ 0) : nextTicket t ≠ 0 := by
  unfold nextTicket
  split
  · decide
  · bv_omega

/-- An octet is at most 255. -/
theorem numAt_le (f : List Byte) (n : Nat) : numAt f n ≤ 255 := Nat.le_of_lt_succ (octetAt f n).isLt

namespace State

/-- The state's ranges kept, part by part. -/
theorem inRange_of {s t : State} (ring : t.ring.inRange) (gather : t.turnover.gather ≤ 255)
    (ticket : t.admission.ticket ≠ 0) (quotas : ∀ p, t.admission.quotas.get p ≤ 224)
    (ports : ∀ q, (s.port q).staysRanged (t.port q)) (h : s.inRange) : t.inRange := by
  obtain ⟨-, -, -, -, hthr, hgap, p, hp⟩ := h
  have ranged (q : Port) : (t.port q).ranged := (ports q).2 ⟨hthr q, hgap q⟩
  exact ⟨ring, gather, ticket, quotas, fun q => (ranged q).1, fun q => (ranged q).2, p, fun q => by
    rw [(ports q).1]; exact hp q⟩

theorem steady_refl (s : State) : s.steady s := ⟨rfl, rfl, id⟩

theorem steady.trans {s t u : State} (h : s.steady t) (h' : t.steady u) : s.steady u :=
  ⟨h'.quotas.trans h.quotas, h'.plan.trans h.plan, h'.ranges ∘ h.ranges⟩

theorem calm.steady {s t : State} (h : s.calm t) : s.steady t where
  quotas := h.quotas
  plan := h.plan
  ranges hs := inRange_of ((Ring.inRange_congr h.ring).mpr hs.1) (h.gather ▸ hs.2.1) (h.ticket ▸ hs.2.2.1)
    (h.quotas ▸ hs.2.2.2.1) h.ports hs

/-- What changes ring, gather counter or ticket counter within their ranges is steady. -/
theorem steady_of {s t : State} (quotas : t.admission.quotas = s.admission.quotas)
    (plan : t.plans.inForce = s.plans.inForce) (ring : s.ring.inRange → t.ring.inRange)
    (gather : s.ring.inRange → s.turnover.gather ≤ 255 → t.turnover.gather ≤ 255)
    (ticket : s.admission.ticket ≠ 0 → t.admission.ticket ≠ 0)
    (ports : ∀ q, (s.port q).staysRanged (t.port q)) : s.steady t where
  quotas := quotas
  plan := plan
  ranges hs := inRange_of (ring hs.1) (gather hs.1 hs.2.1) (ticket hs.2.2.1) (quotas ▸ hs.2.2.2.1) ports hs

/-- A change of the Ring Engine alone within its ranges is steady. -/
theorem steady_of_ring (s : State) {r : Ring} (h : s.ring.inRange → r.inRange) :
    s.steady { s with ring := r } :=
  steady_of rfl rfl h (fun _ => id) id fun _ => HostPort.staysRanged_refl _

/-! ### Ring states -/

/-- Entry into a ring state from counters in bounds: `u` is the state before, up to its Ring Engine. -/
theorem enterRing_steady_of {s u : State} (st : RingState) (reason : RingReason)
    (quotas : u.admission.quotas = s.admission.quotas) (plan : u.plans.inForce = s.plans.inForce)
    (ring : s.ring.inRange → u.ring.inBounds) (gather : u.turnover.gather = s.turnover.gather)
    (ticket : u.admission.ticket = s.admission.ticket) (ports : ∀ q, (s.port q).staysRanged (u.port q)) :
    s.steady (u.enterRing st reason) := by
  refine steady_of quotas plan (fun h => Ring.enter_inRange (ring h) st) (fun _ h => gather.trans_le h)
    (ticket ▸ id) fun q => ?_
  rw [enterRing_port]
  exact (ports q).trans (HostPort.ringChanged_staysRanged _ _ _ _)

theorem enterRing_steady (s : State) (st : RingState) (reason : RingReason) : s.steady (s.enterRing st reason) :=
  enterRing_steady_of st reason rfl rfl (fun h => (Ring.inRange_iff.mp h).1) rfl rfl
    fun _ => HostPort.staysRanged_refl _

theorem halt_steady (s : State) (reason : RingReason) : s.steady (s.halt reason) :=
  (s.leaveRunning_calm true).steady.trans (enterRing_steady _ _ _)

theorem beginQuiet_steady (s : State) (dest : QuietDest) (reason : RingReason) :
    s.steady (s.beginQuiet dest reason) := by
  refine enterRing_steady_of _ _ rfl rfl (fun h => ?_) rfl rfl fun _ => HostPort.staysRanged_refl _
  obtain ⟨-, hb⟩ := (Ring.inRange_iff.mp h).1
  exact ⟨Nat.le_refl 4, hb⟩

/-! ### The Ring Engine at a return -/

/-- The ring leaves RUNNING or BROKEN with its counters in bounds (R98, R99, R104). -/
theorem leave_steady (s : State) {r : Ring} (st : RingState) (reason : RingReason)
    (h : s.ring.inRange → r.inBounds) :
    s.steady ((({ s with ring := r } : State).leaveRunning true).enterRing st reason) := by
  have c := ({ s with ring := r } : State).leaveRunning_calm true
  exact enterRing_steady_of _ _ c.quotas c.plan (fun hs => (Ring.inBounds_congr c.ring).mpr (h hs)) c.gather
    c.ticket c.ports

theorem missInRunning_steady (s : State) (origin : Option (Fin 17)) (hs : s.ring.state = .running) :
    s.steady (s.missInRunning origin) := by
  unfold missInRunning
  dsimp only
  split
  · refine s.leave_steady _ _ fun h => ?_
    simp only [Ring.inRange, hs, true_imp_iff, reduceCtorEq, false_imp_iff, true_and] at h
    simp only [Ring.inBounds, Ring.markBreak]
    omega
  · next hl =>
    refine s.steady_of_ring fun h => ?_
    simp only [Ring.inRange, Ring.markBreak, hs, true_imp_iff, reduceCtorEq, false_imp_iff, true_and] at h hl ⊢
    omega

theorem returnInRunning_steady (s : State) (hop : Option Nat) (hs : s.ring.state = .running) :
    s.steady (s.returnInRunning hop) := by
  unfold returnInRunning
  dsimp only
  split
  · refine s.steady_of_ring fun h => ?_
    simp only [Ring.inRange, hs, true_imp_iff, reduceCtorEq, false_imp_iff, true_and] at h ⊢
    omega
  · split
    · refine s.steady_of_ring fun h => ?_
      simp only [Ring.inRange, hs, true_imp_iff, reduceCtorEq, false_imp_iff, true_and] at h ⊢
      omega
    · split
      · refine s.leave_steady _ _ fun h => ?_
        simp only [Ring.inRange, Ring.inBounds, hs, true_imp_iff, reduceCtorEq, false_imp_iff, true_and] at h ⊢
        omega
      · next hl =>
        refine s.steady_of_ring fun h => ?_
        simp only [Ring.inRange, hs, true_imp_iff, reduceCtorEq, false_imp_iff, true_and] at h hl ⊢
        omega

theorem beginVerification_steady (s : State) : s.steady s.beginVerification := (s.calm_of_nodes _).steady

theorem goodInBroken_steady (s : State) (hop : Nat) (hs : s.ring.state = .broken) :
    s.steady (s.goodInBroken hop) := by
  have healed (h : s.ring.inRange) :
      ({ s.ring with heal := s.ring.heal + 1, healOdd := s.ring.healOdd || hop != s.nodes.count.val } :
        Ring).inBounds := by
    simp only [Ring.inRange, Ring.inBounds, hs, true_imp_iff, reduceCtorEq, false_imp_iff, true_and] at h ⊢
    omega
  unfold goodInBroken
  dsimp only
  split
  · split
    · exact s.leave_steady _ _ healed
    · refine steady.trans ?_ (beginVerification_steady _)
      exact enterRing_steady_of _ _ rfl rfl healed rfl rfl fun _ => HostPort.staysRanged_refl _
  · next hl =>
    refine s.steady_of_ring fun h => ?_
    simp only [Ring.inRange, hs, true_imp_iff, reduceCtorEq, false_imp_iff, true_and] at h hl ⊢
    omega

theorem noHeal_steady (s : State) {r : Ring} (h : r = { s.ring with breakPos := r.breakPos }) :
    s.steady { s with ring := r.noHeal } := by
  refine s.steady_of_ring fun hr => ?_
  obtain ⟨hb, hrun, -⟩ := Ring.inRange_iff.mp hr
  rw [h, Ring.inRange_iff]
  exact ⟨⟨hb.1, hb.2.1, Nat.zero_le _, hb.2.2.2⟩, hrun, fun _ => Nat.zero_le _⟩

theorem engine_steady (s : State) (r : CycleRecord) (cls : ReturnClass) : s.steady (s.engine r cls) := by
  unfold engine
  split
  · next hs =>
    split
    · exact s.missInRunning_steady _ hs
    all_goals exact s.returnInRunning_steady _ hs
  · next hs =>
    split
    · exact s.noHeal_steady rfl
    · exact s.noHeal_steady rfl
    · exact s.goodInBroken_steady _ hs
  all_goals exact s.steady_refl

/-! ### The Control Channel at a return -/

theorem numberingFailed_steady (s : State) : s.steady s.numberingFailed := by
  unfold numberingFailed
  split
  · split
    · exact (s.calm_of_nodes _).steady.trans (enterRing_steady _ _ _)
    · exact (s.calm_of_nodes _).steady
  all_goals exact s.steady_refl

theorem numberingReturned_steady (s : State) (c delay : Nat) : s.steady (s.numberingReturned c delay) := by
  unfold numberingReturned
  split
  · next hc =>
    have numbered : s.steady { s with
        nodes := s.nodes.numbered ⟨c - 1, hc⟩, ring := { s.ring with latency := some delay } } :=
      calm.steady ⟨rfl, rfl, rfl, rfl, rfl, fun _ => HostPort.staysRanged_refl _⟩
    dsimp only
    repeat' split
    · exact numbered
    · exact numbered.trans (enterRing_steady _ _ _)
    · exact numbered.trans (enterRing_steady _ _ _)
  · exact (s.calm_of_nodes _).steady.trans (enterRing_steady _ _ _)

theorem identifyNext_steady (s : State) (p : Pos) : s.steady (s.identifyNext p) := by
  unfold identifyNext
  repeat' split
  · exact (s.calm_of_nodes _).steady
  · exact (s.calm_of_nodes _).steady
  · exact (s.calm_of_nodes _).steady.trans (enterRing_steady _ _ _)

theorem unidentified_steady (s : State) (p : Pos) : s.steady (s.unidentified p) :=
  (s.updateNode_calm p _).steady.trans (identifyNext_steady _ p)

theorem verified_steady (s : State) (p : Pos) (i : Identity) (held : Option Epoch) :
    s.steady (s.verified p i held) := by
  unfold verified
  split
  · exact ((s.changeNode_calm p _ _).trans (calm_of_nodes _ _)).steady
  · exact (s.calm_of_nodes _).steady.trans (halt_steady _ _)

theorem giveUp_steady (s : State) (u : User) (p : Pos) : s.steady (s.giveUp u p) := by
  cases u with
  | numbering => exact s.steady_refl
  | identification => exact s.unidentified_steady p
  | verification => exact (s.unverified_calm p).steady
  | distribution => exact ((s.modWork_calm _).trans (changeNode_calm _ _ _ _)).steady
  | refresh => exact (s.refreshFailed_calm p).steady

theorem attemptFailed_steady (s : State) (x : Exchange) : s.steady (s.attemptFailed x) := by
  unfold attemptFailed
  repeat' split
  · exact s.closeExchange_calm.steady.trans (numberingFailed_steady _)
  · exact (s.retryExchange_calm _).steady
  · exact s.closeExchange_calm.steady.trans (giveUp_steady _ _ _)

theorem nakHeard_steady (s : State) (x : Exchange) : s.steady (s.nakHeard x) := by
  unfold nakHeard
  split
  · exact s.steady_refl
  · split
    · exact s.closeExchange_calm.steady.trans (giveUp_steady _ _ _)
    · dsimp only
      repeat' split
      · exact ((s.retryExchange_calm _).trans (modWork_calm _ _)).steady
      · exact (s.closeExchange_calm.trans (calm_of_control _ _)).steady
      · exact ((s.retryExchange_calm _).trans (calm_of_control _ _)).steady
      all_goals exact (s.retryExchange_calm _).steady

theorem identityHeard_steady (s : State) (x : Exchange) (i : Identity) (held : Option Epoch) :
    s.steady (s.identityHeard x i held) := by
  unfold identityHeard
  split
  · exact (s.closeExchange_calm.trans (updateNode_calm _ _ _)).steady.trans (identifyNext_steady _ _)
  · exact s.closeExchange_calm.steady.trans (verified_steady _ _ _ _)
  · exact s.closeExchange_calm.steady

theorem channel_steady (s : State) (r : CycleRecord) (cls : ReturnClass) (delay : Nat) :
    s.steady (s.channel r cls delay) := by
  unfold channel
  split
  · split
    · split
      · exact s.attemptFailed_steady _
      · exact s.closeExchange_calm.steady.trans (numberingReturned_steady _ _ _)
      · exact s.identityHeard_steady _ _ _
      · exact (s.ackHeard_calm _).steady
      · exact s.nakHeard_steady _
    · exact s.steady_refl
  · exact s.steady_refl

theorem evaluate_steady (s : State) (r : CycleRecord) (cls : ReturnClass) (delay : Nat)
    (drains : List (List DrainPart)) : s.steady (s.evaluate r cls delay drains) := by
  have released : s.calm { s with
      ring := { s.ring with sent := s.ring.sent.tail, beaconed := s.ring.beaconedAfter r cls } } :=
    ⟨rfl, rfl, rfl, rfl, rfl, fun _ => HostPort.staysRanged_refl _⟩
  unfold evaluate
  dsimp only
  have heard := (released.steady.trans (engine_steady _ r cls)).trans (channel_steady _ r cls delay)
  refine heard.trans (calm.steady ?_)
  exact ((extract_calm _ r cls drains).trans (discardRetired_calm _)).trans (advanceWork_calm _)

/-! ### Edits and requests -/

theorem noteBatch_steady (s : State) : s.steady s.noteBatch := by
  refine steady_of rfl rfl id (fun hr h => ?_) id fun _ => HostPort.staysRanged_refl _
  have window : s.ring.gatherWindow ≤ 255 := by
    simp only [Ring.inRange] at hr
    omega
  simp only [noteBatch]
  split
  · rcases s.turnover.startGathering_cases s.running s.ring.gatherWindow with ⟨-, e⟩ | ⟨-, -, -, e⟩ | ⟨-, -, e⟩ <;>
      rw [e]
    · exact h
    · exact Nat.zero_le _
    · exact window
  · exact h

theorem applyEdit_steady (s : State) (p : Port) (e : Edit) : s.steady (s.applyEdit p e).1 := by
  refine steady.trans ?_ ((noteBatch_steady _).trans (postAll_calm _ _).steady)
  exact steady_of rfl rfl id (fun _ => id) nextTicket_ne_zero fun _ => HostPort.staysRanged_refl _

theorem editing_steady (judge : Port → List Byte → State → Except Denial Edit) (p : Port) (f : List Byte)
    (s : State) : s.steady (editing judge p f s).1 := by
  rcases editing_cases judge p f s with ⟨d, -, e⟩ | ⟨d, -, e⟩ <;> rw [e]
  · exact s.steady_refl
  · exact s.applyEdit_steady p d

theorem actStreamQuery_steady (p : Port) (f : List Byte) (s : State) : s.steady (actStreamQuery p f s).1 := by
  unfold actStreamQuery
  split <;> exact s.steady_refl

theorem actNodeQuery_steady (p : Port) (f : List Byte) (s : State) : s.steady (actNodeQuery p f s).1 := by
  unfold actNodeQuery
  split
  · exact calm.steady ⟨rfl, rfl, rfl, rfl, rfl, fun _ => HostPort.staysRanged_refl _⟩
  · exact s.steady_refl

theorem actFlush_steady (p : Port) (f : List Byte) (s : State) : s.steady (actFlush p f s).1 := by
  refine steady_of rfl rfl id (fun _ h => ?_) id fun _ => HostPort.staysRanged_refl _
  simp only [actFlush, answered, Turnover.flushed]
  split
  · exact h
  · exact h
  · exact Nat.zero_le _
  all_goals split <;> exact h

theorem actAttach_steady (p : Port) (f : List Byte) (s : State) : s.steady (actAttach p f s).1 := by
  unfold actAttach
  split
  · exact s.steady_refl
  · exact (s.modPort_calm p _ (HostPort.staysRanged_of_same rfl rfl rfl)).steady

theorem actDetach_steady (p : Port) (f : List Byte) (s : State) : s.steady (actDetach p f s).1 :=
  ((s.endSession_calm p).trans (modPort_calm _ p _ (HostPort.staysRanged_of_same rfl rfl rfl))).steady

/-- A ring-level request is refused, or has its own effect (R45, R174). -/
theorem ringLevel_steady {p : Port} {act : Effect} {s : State} (h : s.steady (act s).1) :
    s.steady (ringLevel p act s).1 := by
  unfold ringLevel
  split
  · exact h
  · exact s.steady_refl

theorem actRingStart_steady (p : Port) (f : List Byte) (s : State) : s.steady (actRingStart p f s).1 := by
  refine ringLevel_steady ?_
  split
  · exact s.beginQuiet_steady _ _
  · exact s.steady_refl

theorem actRingStop_steady (p : Port) (f : List Byte) (s : State) : s.steady (actRingStop p f s).1 := by
  refine ringLevel_steady ?_
  split
  · exact s.steady_refl
  · exact s.steady_of_ring id
  all_goals exact s.endRingWork_calm.steady.trans (beginQuiet_steady _ _ _)

theorem actRingRestart_steady (p : Port) (f : List Byte) (s : State) : s.steady (actRingRestart p f s).1 := by
  have ended := s.endRingWork_calm.steady
  refine ringLevel_steady ?_
  split
  case h_4 | h_5 | h_6 | h_7 => exact s.steady_refl
  all_goals
    refine ended.trans (enterRing_steady_of _ _ rfl rfl (fun h => ?_) rfl rfl
      fun _ => HostPort.staysRanged_refl _)
    obtain ⟨hq, -, -, -, hb⟩ := (Ring.inRange_iff.mp h).1
    exact ⟨hq, Nat.zero_le _, Nat.zero_le _, Nat.zero_le _, hb⟩

theorem actSetRingParameters_steady (p : Port) (f : List Byte) (s : State) :
    s.steady (actSetRingParameters p f s).1 := by
  unfold actSetRingParameters
  split
  · split
    · next hf =>
      refine ringLevel_steady ?_
      split
      · exact s.steady_refl
      · refine s.steady_of_ring fun h => ?_
        have window := numAt_le f 7
        obtain ⟨⟨hq, hm, hh, hs, -⟩, hrun, hbrk⟩ := Ring.inRange_iff.mp h
        refine Ring.inRange_iff.mpr ⟨⟨hq, hm, hh, hs, ?_⟩, hrun, hbrk⟩
        exact ⟨⟨hf.1, hf.2.1⟩, ⟨hf.2.2.1, hf.2.2.2.1⟩, hf.2.2.2.2, window⟩
    · exact s.steady_refl
  · exact s.steady_refl

/-- A request command is steady when its effect is. -/
theorem takeRequest_steady (s : State) (k : RequestKind) {act : Port → List Byte → Effect}
    (h : ∀ p f (u : State), u.steady (act p f u).1) : s.steady (s.takeRequest k act) := by
  rcases s.takeRequest_calm k act with c | ⟨p, f, u, c, c'⟩
  · exact c.steady
  · exact c.steady.trans ((h p f u).trans c'.steady)

theorem internalEdit_steady (s : State) (change : StreamId → Descriptor → StreamChange) :
    s.steady (s.internalEdit change) := by
  refine steady.trans ?_ ((noteBatch_steady _).trans (postAll_calm _ _).steady)
  exact calm.steady ⟨rfl, rfl, rfl, rfl, rfl, fun _ => HostPort.staysRanged_refl _⟩

theorem grantFreeze_steady (s : State) : s.steady s.grantFreeze := by
  unfold grantFreeze
  split <;>
    exact steady_of rfl rfl id (fun _ _ => Nat.zero_le _) id fun _ => HostPort.staysRanged_refl _

end State
end Sys2Proof.Machine
end

section
/-! SUPPORT. Ranges and quotas where quotas, or the placements in force, may change: Set Quota, the resets, the
switch, the entry into OFF and the reconciliation; and then every command. -/

namespace Sys2Proof.Machine

/-- The straps name one port (R174). -/
theorem straps_name_one (straps : BitVec 2) : ∃ p : Port, ∀ q : Port, (straps.toNat == q.val) = true ↔ q = p :=
  ⟨⟨straps.toNat, straps.isLt⟩, fun _ =>
    ⟨fun h => Fin.ext (beq_iff_eq.mp h).symm, fun h => beq_iff_eq.mpr (congrArg Fin.val h).symm⟩⟩

theorem Ring.reset_inRange : Ring.reset.inRange := by simp [Ring.inRange, Ring.reset]

namespace State

/-! ### Resets and Set Quota -/

/-- Every reset leaves the ranges as they are after reset (R176). -/
theorem resetWith_inRange (s : State) (cause : ResetCause) (straps : BitVec 2) (low : Bool) :
    (s.resetWith cause straps low).inRange := by
  have port (q : Port) : (s.resetWith cause straps low).port q = { HostPort.reset cause (straps.toNat == q.val) with
      heldOver := (s.port q).heldOver || (s.port q).txn.isSome } := Table.get_tabulate _ q
  obtain ⟨p, hp⟩ := straps_name_one straps
  refine ⟨Ring.reset_inRange, Nat.zero_le _, (by decide : (1 : Ticket) ≠ 0), fun q => ?_, fun q => ?_, fun q id => ?_,
    p, fun q => ?_⟩
  · exact (Table.get_fill 56 q).trans_le (by decide)
  · rw [port]; exact ⟨Nat.le_refl 1, (by decide : 1 ≤ 4096)⟩
  · rw [port]; exact (Table.get_fill 0 id).trans_le (by decide)
  · rw [port]; exact hp q

/-- Set Quota keeps the plan in force, and writes a quota of at most 224 (R15, R175). -/
theorem actSetQuota_keeps (p : Port) (f : List Byte) (s : State) :
    (actSetQuota p f s).1.plans.inForce = s.plans.inForce ∧ (s.inRange → (actSetQuota p f s).1.inRange) := by
  unfold actSetQuota
  split
  · next q hq =>
    split
    · next hf =>
      unfold ringLevel
      split
      · refine ⟨rfl, fun h => ?_⟩
        obtain ⟨hr, hg, ht, hquota, hrest⟩ := h
        refine ⟨hr, hg, ht, fun j => ?_, hrest⟩
        simp only [answered, Table.get_set]
        split
        · exact hf
        · exact hquota j
      · exact ⟨rfl, id⟩
    · exact ⟨rfl, id⟩
  · exact ⟨rfl, id⟩

/-! ### The switch cycle -/

theorem switchNodes_calm (s : State) (epoch : Epoch) : s.calm (s.switchNodes epoch) :=
  (s.calm_of_nodes _).trans (changeNodes_calm _ _ _ _)

/-- The switch before its notices: views, plans, mover and gap counters (R81, R147, R151, R155). -/
def switchedTables (s : State) : State :=
  { s with
    streams := s.streams.map fun e => { e with inForce := e.outgoing, outgoing := none }
    plans :=
      { inForce := s.plans.outgoing.getD s.plans.inForce
        outgoing := none
        retired := if s.ring.awaits s.plans.inForce.epoch then some s.plans.inForce else none }
    mover := s.mover.switchOver s.inForceView s.outgoingView (s.ring.awaits s.plans.inForce.epoch)
    ports := Table.tabulate fun p => (s.port p).switchGaps p s.inForceView s.outgoingView }

/-- The switch is that of the tables, then of the nodes with its notices, then of the controller (R81, R82). -/
theorem switchOver_eq (s : State) :
    s.switchOver = { (s.switchedTables.switchNodes (s.turnover.target.getD s.turnover.epoch)).postAll
        (settledNotices s.turnover.outTickets (s.turnover.target.getD s.turnover.epoch)) with
      turnover := s.turnover.switched (s.turnover.target.getD s.turnover.epoch) s.admission.batchEmpty
        s.ring.gatherWindow } := rfl

/-- The switch reaches ports, streams, plans, nodes' entries, mover and controller alone (R81). -/
theorem switchOver_frame (s : State) :
    s.switchOver = { s with
      ports := s.switchOver.ports, streams := s.switchOver.streams, plans := s.switchOver.plans
      turnover := s.switchOver.turnover, mover := s.switchOver.mover
      nodes := { s.nodes with entries := s.switchOver.nodes.entries } } := by
  obtain ⟨claim, e⟩ := changeNodes_frame _ _ _ _
  rw [switchOver_eq, switchNodes]
  dsimp only
  rw [e]
  rfl

theorem switchedTables_ports (s : State) (q : Port) : (s.port q).staysRanged (s.switchedTables.port q) := by
  simp only [switchedTables, port, Table.get_tabulate]
  exact HostPort.switchGaps_staysRanged _ _ _ _

/-- A switch keeps the quotas and the ranges (R15, R82). -/
theorem switchOver_keeps (s : State) :
    s.switchOver.admission.quotas = s.admission.quotas ∧ (s.inRange → s.switchOver.inRange) := by
  have told := (switchNodes_calm s.switchedTables (s.turnover.target.getD s.turnover.epoch)).trans
    (postAll_calm _ (settledNotices s.turnover.outTickets (s.turnover.target.getD s.turnover.epoch)))
  rw [switchOver_frame]
  refine ⟨rfl, fun h => ?_⟩
  have ⟨hr, hg, ht, hq, _⟩ := h
  refine inRange_of hr ?_ ht hq (fun q => (s.switchedTables_ports q).trans (told.ports q)) h
  rw [switchOver_eq]
  simp only [Turnover.switched]
  simp only [Ring.inRange] at hr
  split <;> omega

/-- The state of which a cycle is composed: that which the switch leaves, in its cycle (R80, log 10). -/
def composing (s : State) : State := if s.switchDue s.ring.nextCount then s.switchOver else s

theorem composing_of_not_due {s : State} (h : s.switchDue s.ring.nextCount = false) : s.composing = s := by
  simp [composing, h]

theorem composing_of_due {s : State} (h : s.switchDue s.ring.nextCount = true) : s.composing = s.switchOver := by
  simp [composing, h]

@[simp] theorem composing_ring (s : State) : s.composing.ring = s.ring := by
  unfold composing
  split
  · rw [switchOver_frame]
  · rfl

/-- The octets of the hub cycle `c` composed of a state (R89). -/
def hubOctets (s : State) (c : CycleCount) : List Byte :=
  cycleOctets false s.turnover.inFlight s.turnover.epoch c 0 0 (s.controlFor c).field (s.payloadFor (pageOf c))

/-- A hub cycle is composed of the state that its switch, if it is due, leaves (R80, R89). -/
theorem sendCycle_eq (s : State) :
    s.sendCycle = { s.composing with
      mover := s.composing.moverAfter (pageOf s.ring.nextCount)
      control := (s.composing.controlFor s.ring.nextCount).control
      turnover :=
        { s.composing.turnover with
          gather :=
            if s.turnover.state == .gathering then s.composing.turnover.gather - 1
            else s.composing.turnover.gather }
      ring := s.ring.afterCycle s.composing.turnover.epoch (s.composing.controlFor s.ring.nextCount).awaits
        (s.composing.hubOctets s.ring.nextCount) } := by
  unfold sendCycle
  dsimp only
  rw [show (if s.switchDue s.ring.nextCount then s.switchOver else s) = s.composing from rfl, composing_ring]
  rfl

/-- The cycle that follows the switch, if there is one, is steady (R89). -/
theorem composing_steady_sendCycle (s : State) : s.composing.steady s.sendCycle := by
  rw [sendCycle_eq]
  refine steady_of rfl rfl (fun h => ?_) (fun _ h => ?_) id fun _ => HostPort.staysRanged_refl _
  · rw [composing_ring] at h
    obtain ⟨hq, hrest⟩ := h
    refine ⟨?_, hrest⟩
    simp only [Ring.afterCycle]
    split <;> omega
  · dsimp only
    split
    · exact (Nat.sub_le _ 1).trans h
    · exact h

theorem sendCycle_keeps (s : State) :
    s.sendCycle.admission.quotas = s.admission.quotas ∧ (s.inRange → s.sendCycle.inRange) := by
  have sent := s.composing_steady_sendCycle
  have switched : s.composing.admission.quotas = s.admission.quotas ∧ (s.inRange → s.composing.inRange) := by
    unfold composing
    split
    · exact s.switchOver_keeps
    · exact ⟨rfl, id⟩
  exact ⟨sent.quotas.trans switched.1, sent.ranges ∘ switched.2⟩

/-! ### The end of the quiet cycles and the reconciliation -/

theorem enterOff_keeps (s : State) :
    s.enterOff.admission.quotas = s.admission.quotas ∧ (s.inRange → s.enterOff.inRange) := by
  refine ⟨rfl, fun h => ?_⟩
  have told := s.postAll_calm s.stoppedNotices
  have ⟨hr, _, ht, hq, _⟩ := h
  refine inRange_of ?_ (Nat.zero_le _) ht hq (fun q => ?_) h
  · simp only [enterOff, enterRing, Ring.enter, Ring.inRange, postAll_ring] at hr ⊢
    simp
    omega
  · have cleared : ((s.postAll s.stoppedNotices).port q).staysRanged
        { (s.postAll s.stoppedNotices).port q with gaps := Table.fill 0 } :=
      HostPort.staysRanged_of_gaps rfl rfl fun _ id => by simp
    refine ((told.ports q).trans cleared).trans ?_
    unfold enterOff
    rw [enterRing_port]
    simp only [port, Table.get_map]
    exact HostPort.ringChanged_staysRanged _ _ _ _

theorem endQuiet_keeps (s : State) :
    s.endQuiet.admission.quotas = s.admission.quotas ∧ (s.inRange → s.endQuiet.inRange) := by
  unfold endQuiet
  split
  · have entered := enterRing_steady_of (s := s) (u := { s with
      ring := { s.ring with quietDest := none }, nodes := { s.nodes with procedure := .numbering 0 } })
      .numbering .start rfl rfl (fun h => (Ring.inRange_iff.mp h).1) rfl rfl fun _ => HostPort.staysRanged_refl _
    exact ⟨entered.quotas, entered.ranges⟩
  · exact s.enterOff_keeps
  · exact ⟨rfl, id⟩

/-- A reconciliation keeps quotas and ranges; the plan in force it compiles again (R139). -/
theorem reconcile_keeps (s : State) (old : Retained) :
    (s.reconcile old).admission.quotas = s.admission.quotas ∧ (s.inRange → (s.reconcile old).inRange) := by
  refine ⟨rfl, fun h => ?_⟩
  have ⟨hr, _, ht, hq, _⟩ := h
  refine inRange_of (Ring.enter_inRange (Ring.inRange_iff.mp hr).1 .running) (Nat.zero_le _) ht hq (fun q => ?_) h
  unfold reconcile
  rw [enterRing_port]
  exact HostPort.ringChanged_staysRanged _ _ _ _

/-! ### Every command -/

theorem takeUnknown_steady (s : State) : s.steady s.takeUnknown := s.takeUnknown_calm.steady

end State

/-- A command but Set Quota, the resets, the hub cycle, the end of the quiet cycles and the reconciliation
keeps quotas, the plan in force and the ranges. -/
theorem exec_steady {c : Instr} {s t : State} (h : exec c s = .next t) (quotas : writesQuotas c = false)
    (places : mayMovePlacements c = false) (recon : c ≠ .reconciliation) : s.steady t := by
  have request (k : RequestKind) {act : Port → List Byte → Effect} (e : t = s.takeRequest k act)
      (ha : ∀ p f (u : State), u.steady (act p f u).1) : s.steady t := e ▸ s.takeRequest_steady k ha
  cases c with
  | request | fetch | drain | post | status | take | serviceDone | eventset | unknownTransaction =>
    cases h; exact (s.transact_calm _ _ _ _).steady
  | openStream | alter | close | subscribe | unsubscribe | handover =>
    cases h; exact request _ rfl (State.editing_steady _)
  | streamQuery => cases h; exact request _ rfl State.actStreamQuery_steady
  | occupancyQuery => cases h; exact request _ rfl fun _ _ u => u.steady_refl
  | nodeQuery => cases h; exact request _ rfl State.actNodeQuery_steady
  | flush => cases h; exact request _ rfl State.actFlush_steady
  | attach => cases h; exact request _ rfl State.actAttach_steady
  | detach => cases h; exact request _ rfl State.actDetach_steady
  | ringStart => cases h; exact request _ rfl State.actRingStart_steady
  | ringStop => cases h; exact request _ rfl State.actRingStop_steady
  | ringRestart => cases h; exact request _ rfl State.actRingRestart_steady
  | setRingParameters => cases h; exact request _ rfl State.actSetRingParameters_steady
  | portEntry =>
    simp only [exec, execPortEntry] at h
    split at h <;> cases h
    · exact s.internalEdit_steady _
    all_goals exact s.steady_refl
  | nodeEntryLost =>
    simp only [exec, execNodeEntryLost] at h
    split at h <;> cases h
    · exact s.internalEdit_steady _
    all_goals exact s.steady_refl
  | nodeEntryNodeChanged =>
    simp only [exec, execNodeEntryNodeChanged] at h
    split at h <;> cases h
    · exact s.internalEdit_steady _
    all_goals exact s.steady_refl
  | gatherCounterExpiry =>
    cases h
    split
    · exact State.calm.steady ⟨rfl, rfl, rfl, rfl, rfl, fun _ => HostPort.staysRanged_refl _⟩
    · exact s.steady_refl
  | freeze =>
    cases h
    split
    · exact s.grantFreeze_steady
    · exact s.steady_refl
  | returnEvaluation cell arrival =>
    cases h
    repeat' split
    · exact s.steady_refl
    · exact (s.follow_calm _ _ _).steady.trans (State.evaluate_steady _ _ _ _ _)
    · exact s.steady_refl
  | returnWindowExpiry =>
    cases h
    split
    · exact s.steady_refl
    · exact s.evaluate_steady _ _ _ _
  | beaconReceived octets =>
    cases h
    repeat' split
    · exact s.steady_refl
    · exact s.evaluate_steady _ _ _ _
    · exact s.steady_refl
  | leaseExpiry p =>
    cases h
    exact ((s.modPort_calm p _ (HostPort.expire_staysRanged _)).trans (State.grantLapse_calm _ p)).steady
  | lapse p => cases h; exact (s.grantLapse_calm p).steady
  | nresetRelease => cases h; exact State.calm.steady ⟨rfl, rfl, rfl, rfl, rfl, fun _ => HostPort.staysRanged_refl _⟩
  | reconciliation => exact absurd rfl recon
  | setQuota => cases quotas
  | deviceReset | powerOnReset | pinReset | hubCycle | quietCyclesEnd => cases places

/-- The commands that only a step of their own keeps in range: quotas and ranges at the hub cycle, at the end of
the quiet cycles and at the reconciliation. -/
theorem exec_boundary_keeps {c : Instr} {s t : State} (h : exec c s = .next t)
    (hc : c = .hubCycle ∨ c = .quietCyclesEnd ∨ c = .reconciliation) :
    t.admission.quotas = s.admission.quotas ∧ (s.inRange → t.inRange) := by
  rcases hc with rfl | rfl | rfl <;> cases h
  · split
    · exact s.sendCycle_keeps
    · exact ⟨rfl, id⟩
  · split
    · exact s.endQuiet_keeps
    · exact ⟨rfl, id⟩
  · repeat' split
    · exact s.reconcile_keeps _
    · exact ⟨rfl, id⟩
    · exact ⟨rfl, id⟩

/-- Every command keeps the ranges. -/
theorem exec_inRange {c : Instr} {s t : State} (h : exec c s = .next t) (hs : s.inRange) : t.inRange := by
  cases c with
  | setQuota =>
    cases h
    rcases s.takeRequest_calm .setQuota actSetQuota with e | ⟨p, f, u, e, e'⟩
    · exact e.steady.ranges hs
    · exact e'.steady.ranges ((State.actSetQuota_keeps p f u).2 (e.steady.ranges hs))
  | deviceReset straps =>
    cases h
    rcases s.takeRequest_calm .deviceReset (actDeviceReset straps) with e | ⟨p, f, u, e, e'⟩
    · exact e.steady.ranges hs
    · refine e'.steady.ranges ?_
      unfold actDeviceReset ringLevel
      split
      · exact u.resetWith_inRange _ _ _
      · exact e.steady.ranges hs
  | powerOnReset straps low => cases h; exact s.resetWith_inRange _ _ _
  | pinReset straps => cases h; exact s.resetWith_inRange _ _ _
  | hubCycle => exact (exec_boundary_keeps h (.inl rfl)).2 hs
  | quietCyclesEnd => exact (exec_boundary_keeps h (.inr (.inl rfl))).2 hs
  | reconciliation => exact (exec_boundary_keeps h (.inr (.inr rfl))).2 hs
  | _ => exact (exec_steady h rfl rfl (by simp)).ranges hs

/-- Settles O8: what every command does to the ranges, and what a frame of unknown kind does. -/
theorem rangesAreKept : Obligations.RangesAreKept := by
  intro s t hs h
  unfold step at h
  split at h
  · cases h; exact s.takeUnknown_steady.ranges hs
  · exact exec_inRange h hs

/-! ### The placements in force at a reconciliation -/

/-- A layout is fixed by which streams are present and how long their slots are (R26). -/
theorem layoutFrom_congr {v w : ViewTable} (k : Page)
    (h : ∀ id, (v.get id).map (fun d => (d.present k, d.slotLength)) =
      (w.get id).map fun d => (d.present k, d.slotLength)) (ids : List StreamId) (at' : Nat) :
    layoutFrom v k ids at' = layoutFrom w k ids at' := by
  induction ids generalizing at' with
  | nil => rfl
  | cons id ids ih =>
    have hid := h id
    unfold layoutFrom
    cases hv : v.get id <;> cases hw : w.get id <;> simp_all

/-- A position rewrite leaves every layout (R8, R26). -/
theorem compile_rewrite_layouts (t : Table Entry 48) (move : Pos → Pos) (e e' : Epoch) :
    (compile ((t.map fun x => x.rewrite move).map Entry.inForce) e).layouts =
      (compile (t.map Entry.inForce) e').layouts := by
  simp only [compile]
  refine Table.ext_get fun k => ?_
  rw [Table.get_tabulate, Table.get_tabulate]
  refine layoutFrom_congr k (fun id => ?_) _ _
  simp only [Table.get_map, Entry.rewrite, Option.map_map]
  rfl

/-- A reconciliation derives the same placements again (R35, R139). -/
theorem State.reconcile_layouts {s : State} (old : Retained) (h : s.plansMatch) :
    (s.reconcile old).plans.inForce.layouts = s.plans.inForce.layouts := by
  rw [h.1]
  exact compile_rewrite_layouts s.streams _ _ _

/-- Settles O9: quotas by `State.steady`; the placements by it too but for the reconciliation, which derives the
same ones again. -/
theorem quotasAndPlacementsAreKept : Obligations.QuotasAndPlacementsAreKept := by
  refine ⟨fun c s t hq h => ?_, fun c s t hp h hc => ?_⟩
  · cases c with
    | setQuota | deviceReset | powerOnReset | pinReset => cases hq
    | hubCycle => exact (exec_boundary_keeps h (.inl rfl)).1
    | quietCyclesEnd => exact (exec_boundary_keeps h (.inr (.inl rfl))).1
    | reconciliation => exact (exec_boundary_keeps h (.inr (.inr rfl))).1
    | _ => exact (exec_steady h rfl rfl (by simp)).quotas
  · rcases hc with hm | ⟨rfl, hd⟩
    · cases c with
      | hubCycle | quietCyclesEnd | deviceReset | powerOnReset | pinReset => cases hm
      | setQuota =>
        cases h
        rcases s.takeRequest_calm .setQuota actSetQuota with e | ⟨p, f, u, e, e'⟩
        · rw [e.plan]
        · rw [e'.plan, (State.actSetQuota_keeps p f u).1, e.plan]
      | reconciliation =>
        cases h
        repeat' split
        · exact State.reconcile_layouts _ hp
        all_goals rfl
      | _ => rw [(exec_steady h rfl rfl (by simp)).plan]
    · cases h
      split
      · rw [s.composing_steady_sendCycle.plan, State.composing_of_not_due hd]
      · rfl

end Sys2Proof.Machine
end

section
/-! SUPPORT. The state after reset. -/

namespace Sys2Proof.Machine

theorem State.reset_port (p : Port) : State.reset.port p = HostPort.reset .power (p == 0) :=
  Table.get_tabulate _ p

theorem State.reset_entry (id : StreamId) : State.reset.entry id = Entry.free := Table.get_fill _ id

/-- A view in which every entry is absent. -/
theorem map_free (f : Entry → Option Descriptor) (h : f Entry.free = none) :
    (State.reset.streams.map f : ViewTable) = Table.fill none :=
  Table.ext_get fun id => by
    rw [Table.get_map, Table.get_fill, show State.reset.streams.get id = Entry.free from State.reset_entry id, h]

/-- A view with every entry absent takes no octet of any page (R28). -/
theorem pageTotal_absent (k : Page) : pageTotal (Table.fill none) k = 0 := by
  simp [pageTotal, shareOn]

theorem layoutFrom_absent (k : Page) (ids : List StreamId) (at' : Nat) :
    layoutFrom (Table.fill none) k ids at' = [] := by
  induction ids with
  | nil => rfl
  | cons id ids ih => simp [layoutFrom, ih]

/-- The plan of a view with every entry absent (R24). -/
theorem compile_absent (e : Epoch) : compile (Table.fill none) e = Plan.empty e := by
  have layouts : (Table.tabulate (layoutOf (Table.fill none)) : Table _ 8) = Table.fill [] :=
    Table.ext_get fun k => by rw [Table.get_tabulate, Table.get_fill]; exact layoutFrom_absent k _ _
  have taps : (Table.tabulate (tapListOf (Table.fill none) (Table.fill [])) : Table _ 15) = Table.fill [] :=
    Table.ext_get fun p => by simp [tapListOf]
  unfold compile Plan.empty
  dsimp only
  rw [layouts, taps]

theorem State.reset_bounded : State.reset.bounded := by
  refine ⟨fun p => ?_, List.Pairwise.nil⟩
  rw [State.reset_port]
  simp [HostPort.bounded, HostPort.reset, EventUnit.cleared, occupancy]

theorem State.reset_pagesWithin : State.reset.pagesWithin := by
  intro k
  rw [State.stagedView, State.outgoingView, State.inForceView, map_free _ rfl, map_free _ rfl, map_free _ rfl,
    pageTotal_absent]
  omega

theorem State.reset_plansMatch : State.reset.plansMatch := by
  refine ⟨?_, rfl, rfl, fun id => ?_⟩
  · rw [State.inForceView, map_free _ rfl, compile_absent]; rfl
  · rw [State.reset_entry]; rfl

theorem State.reset_coherent : State.reset.coherent := by
  refine ⟨nofun, nofun, nofun, nofun, nofun, fun p h => ?_, fun p h => ?_⟩ <;> rw [State.reset_port] at h
  · cases h
  · exact absurd rfl h

theorem State.reset_inRange : State.reset.inRange := by
  refine ⟨Ring.reset_inRange, Nat.zero_le _, (by decide : (1 : Ticket) ≠ 0), fun p => ?_, fun p => ?_,
    fun p id => ?_, 0, fun q => ?_⟩
  · exact (Table.get_fill 56 p).trans_le (by decide)
  · rw [State.reset_port]; exact ⟨Nat.le_refl 1, (by decide : 1 ≤ 4096)⟩
  · rw [State.reset_port]; exact (Table.get_fill 0 id).trans_le (by decide)
  · rw [State.reset_port]; exact beq_iff_eq

theorem State.reset_postsFit : State.reset.postsFit := by
  intro id d x h
  rw [State.reset_entry] at h
  cases h

/-- Settles O3: each invariant of the state after reset. -/
theorem resetStateIsSound : Obligations.ResetStateIsSound :=
  ⟨State.reset_bounded, State.reset_pagesWithin, State.reset_plansMatch, State.reset_coherent,
    State.reset_inRange, State.reset_postsFit⟩

end Sys2Proof.Machine
end

section
/-! SUPPORT. Reading request frames, and the taking of a well-formed one. -/

namespace Sys2Proof.Machine

/-! ### Octets -/

/-- A number below 256 is read back from its octet. -/
theorem octet_toNat {n : Nat} (h : n < 256) : (octet n).toNat = n := by
  rw [octet, BitVec.toNat_ofNat, Nat.mod_eq_of_lt h]

theorem octet_toNat_self (b : Byte) : octet b.toNat = b := BitVec.eq_of_toNat_eq (octet_toNat b.isLt)

@[simp] theorem octet_port_toNat (q : Port) : (octet q.val).toNat = q.val := octet_toNat (by omega)
@[simp] theorem octet_stream_toNat (id : StreamId) : (octet id.val).toNat = id.val := octet_toNat (by omega)
@[simp] theorem octet_pos_toNat (p : Pos) : (octet (posNum p)).toNat = posNum p :=
  octet_toNat (by unfold posNum; omega)

@[simp] theorem streamOf_val (id : StreamId) : streamOf id.val = some id := by simp [streamOf]
@[simp] theorem portOf_val (q : Port) : portOf q.val = some q := by simp [portOf]
@[simp] theorem posOf_posNum (p : Pos) : posOf (posNum p) = some p := by
  have := p.isLt
  unfold posOf posNum
  rw [dif_pos (by omega)]
  rfl

theorem streamOf_eq_none {n : Nat} : streamOf n = none ↔ 47 < n := by
  unfold streamOf; split <;> simp <;> omega
theorem portOf_eq_none {n : Nat} : portOf n = none ↔ 3 < n := by
  unfold portOf; split <;> simp <;> omega

/-- A position read from a number is the position of that number. -/
theorem posOf_eq_some {n : Nat} {p : Pos} : posOf n = some p ↔ n = posNum p := by
  constructor
  · intro h
    unfold posOf at h
    split at h
    · next hn => cases h; simp only [posNum]; omega
    · cases h
  · rintro rfl; exact posOf_posNum p

/-- Octets name positions exactly when they are the positions' octets. -/
theorem positionsOf_eq_some {l : List Byte} {ps : List Pos} :
    positionsOf l = some ps ↔ l = ps.map fun p => octet (posNum p) := by
  induction l generalizing ps with
  | nil => cases ps <;> simp [positionsOf]
  | cons b l ih =>
    have head (p : Pos) : posOf b.toNat = some p ↔ b = octet (posNum p) := by
      rw [posOf_eq_some]
      exact ⟨fun h => by rw [← h, octet_toNat_self], fun h => by rw [h, octet_pos_toNat]⟩
    unfold positionsOf
    constructor
    · intro h
      split at h
      · next p qs hp hq => cases h; rw [List.map_cons, ← (head p).mp hp, ← ih.mp hq]
      · cases h
    · intro h
      cases ps with
      | nil => cases h
      | cons p ps =>
        rw [List.map_cons, List.cons.injEq] at h
        simp [(head p).mpr h.1, ih.mpr h.2]

/-! ### Frames -/

section frames
variable (tag : Byte) (code : Nat) (l : List Byte)

@[simp] theorem frameOf_length : (frameOf tag code l).length = 3 + l.length := by
  simp only [frameOf, List.length_cons]; omega

end frames

/-! ### The taking of a well-formed frame -/

namespace State

/-- A well-formed frame of an ATTACHED port that the arbiter chooses runs with its own effect (R39, R45, R47). -/
theorem takeRequest_wellFormed {s : State} {p : Port} {f : List Byte} {k : RequestKind}
    (act : Port → List Byte → Effect) (hp : s.pick = some (p, f)) (ha : (s.port p).attached = true)
    (hk : frameKind f = some k) (hw : frameWellFormed k f = true) :
    s.takeRequest k act = s.runItem p f (act p f) := by
  have begun : ((s.beginItem p f).port p).attached = true := by
    rw [← ha]
    simp only [port, beginItem, Table.get_modify_self]
    rfl
  rw [takeRequest_of_pick act hp hk]
  unfold runItem checked
  simp [begun, hw]

/-- A request whose effect is a change that the taking of its frame does not touch, and an answer (R41, R48). -/
theorem runItem_answers {s u : State} {p : Port} {f : List Byte} {act : Effect} {r : Reply}
    (hact : act (s.beginItem p f) = (u.beginItem p f, some r)) (hu : u.admission.processing = none) :
    s.runItem p f act = u.afterAnswer p f r := by
  unfold runItem
  rw [hact]
  exact finishItem_beginItem p f r hu

theorem processing_of_pick {s : State} {p : Port} {f : List Byte} (hp : s.pick = some (p, f)) :
    s.admission.processing = none := (pick_some hp).1

/-! ### Edits -/

/-- A refused edit changes nothing but its answer (R45, R48). -/
theorem edit_refused {s : State} {p : Port} {f : List Byte} {k : RequestKind}
    {judge : Port → List Byte → State → Except Denial Edit} {r : Reason} {d : Nat}
    (hp : s.pick = some (p, f)) (ha : (s.port p).attached = true) (hk : frameKind f = some k)
    (hw : frameWellFormed k f = true) (hj : judge p f (s.beginItem p f) = .error (r, d)) :
    s.takeRequest k (editing judge) = s.afterAnswer p f (.refused r d) := by
  rw [takeRequest_wellFormed _ hp ha hk hw]
  refine runItem_answers ?_ (processing_of_pick hp)
  unfold editing
  rw [hj]
  rfl

/-- What the batch makes of the Turnover Controller (R67). -/
theorem startGathering_eq_gathered (s : State) :
    (if s.admission.batchEmpty then s.turnover.startGathering s.running s.ring.gatherWindow else s.turnover) =
      s.gathered := by
  unfold gathered
  cases hb : s.admission.batchEmpty with
  | false => simp
  | true =>
    rcases s.turnover.startGathering_cases s.running s.ring.gatherWindow with
      ⟨hi, e⟩ | ⟨hi, hw, hr, e⟩ | ⟨hi, hw, e⟩ <;> rw [if_pos rfl, e]
    · rw [if_neg fun h => hi h.2]
    · rw [if_pos ⟨rfl, hi⟩, if_pos ⟨by simpa [running] using hr, hw⟩]
    · rw [if_pos ⟨rfl, hi⟩, if_neg fun h => ?_]
      rcases hw with hw | hr
      · exact hw h.2
      · exact h.1 (by simpa [running] using hr)

/-- An accepted edit of a frame just taken: the tables as the edit leaves them, and its notices (R5, R18, R19,
R67). -/
theorem applyEdit_beginItem (s : State) (p : Port) (f : List Byte) (e : Edit) :
    (s.beginItem p f).applyEdit p e =
      (((s.afterEdit p e.id e.staged).beginItem p f).postAll e.notices,
        some (.accepted e.id s.admission.ticket)) := by
  have gathers := s.startGathering_eq_gathered
  unfold applyEdit noteBatch afterEdit
  rw [← gathers]
  rfl

/-- An accepted edit without notices (R18, R19, R48). -/
theorem edit_accepted {s : State} {p : Port} {f : List Byte} {k : RequestKind}
    {judge : Port → List Byte → State → Except Denial Edit} {id : StreamId} {d : Option Descriptor}
    (hp : s.pick = some (p, f)) (ha : (s.port p).attached = true) (hk : frameKind f = some k)
    (hw : frameWellFormed k f = true)
    (hj : judge p f (s.beginItem p f) = .ok { id := id, staged := d, notices := [] }) :
    s.takeRequest k (editing judge) =
      (s.afterEdit p id d).afterAnswer p f (.accepted id s.admission.ticket) := by
  rw [takeRequest_wellFormed _ hp ha hk hw]
  refine runItem_answers (u := s.afterEdit p id d) ?_ (processing_of_pick (s := s) hp)
  unfold editing
  rw [hj]
  exact applyEdit_beginItem s p f _

end State

/-! ### The measures of an edit -/

/-- The lowest index at which a test holds. -/
theorem find?_finRange_eq_some {n : Nat} {test : Fin n → Bool} {i : Fin n} :
    (List.finRange n).find? test = some i ↔ test i = true ∧ ∀ j, j < i → test j = false := by
  rw [← Fin.find?_eq_find?_finRange, Fin.find?_eq_some_iff]

/-- The lowest position of those a descriptor names at which a test holds. -/
theorem Descriptor.find?_positions (d : Descriptor) (test : Pos → Bool) (q : Pos) :
    d.positions.find? test = some q ↔
      d.names q = true ∧ test q = true ∧ ∀ j, j < q → d.names j = true → test j = false := by
  rw [Descriptor.positions, List.find?_filter, allPositions, find?_finRange_eq_some]
  simp only [decide_eq_true_eq, decide_eq_false_iff_not, not_and, Bool.not_eq_true, and_assoc]

theorem Descriptor.find?_positions_none (d : Descriptor) (test : Pos → Bool) :
    d.positions.find? test = none ↔ ∀ q, d.names q = true → test q = false := by
  simp [Descriptor.positions, allPositions]

namespace State

/-- Step 7 finds the lowest named position that is not READY (R45, R48). -/
theorem unready_eq_some {s : State} {d : Descriptor} {q : Pos} : s.unready d = some q ↔ s.unreadyAt d q := by
  rw [unready, d.find?_positions, unreadyAt]
  simp

theorem unready_eq_none {s : State} {d : Descriptor} :
    s.unready d = none ↔ ∀ q, d.names q = true → (s.node q).state = .ready := by
  rw [unready, d.find?_positions_none]
  simp

theorem overPage_eq_some {s : State} {v : ViewTable} {p : Port} {k : Page} :
    overPage v p (s.admission.quotas.get p) = some k ↔ s.overQuotaAt v p k := by
  rw [overPage, allPages, find?_finRange_eq_some, overQuotaAt]
  simp

theorem overPage_eq_none {v : ViewTable} {p : Port} {quota : Nat} :
    overPage v p quota = none ↔ ∀ k, usage v p k ≤ quota := by
  simp [overPage, allPages]

theorem fullPage_eq_none {v : ViewTable} : fullPage v = none ↔ ∀ k, pageTotal v k ≤ 224 := by
  simp only [fullPage, allPages, List.find?_eq_none, List.mem_finRange, decide_eq_true_eq, Nat.not_lt, true_imp_iff]
  rfl

theorem fullPage_eq_some {v : ViewTable} {k : Page} :
    fullPage v = some k ↔ 224 < pageTotal v k ∧ ∀ j, j < k → pageTotal v j ≤ 224 := by
  rw [fullPage, allPages, find?_finRange_eq_some]
  simp only [decide_eq_true_eq, decide_eq_false_iff_not, Nat.not_lt]
  rfl

/-- Step 8 past the FREE entry refuses what is above a measure (R36, R45). -/
theorem measure_of_exceeds {s : State} {v : ViewTable} {p : Port} {d : Descriptor} {r : Reason} {detail : Nat}
    (h : s.exceeds v p d r detail) : s.measure v p d = .error (r, detail) := by
  unfold measure
  rcases h with ⟨rfl, k, rfl, hk⟩ | ⟨hf, rfl, k, rfl, hk⟩ | ⟨hf, rfl, q, rfl, hq, hc, hl⟩
  · rw [fullPage_eq_some.mpr hk]
  · rw [fullPage_eq_none.mpr hf, overPage_eq_some.mpr hk]
  · have tapped : s.overTapped v d = some q := by
      rw [overTapped, d.find?_positions]
      exact ⟨hq, decide_eq_true hc, fun j hj hn => decide_eq_false (Nat.not_lt.mpr (hl j hj hn))⟩
    rw [fullPage_eq_none.mpr fun k => (hf k).1, overPage_eq_none.mpr fun k => (hf k).2, tapped]

/-- What is within every measure passes step 8 (R36, R45). -/
theorem measure_of_fits {s : State} {v : ViewTable} {p : Port} {d : Descriptor} (h : s.fits v p d) :
    s.measure v p d = .ok () := by
  have under : s.overTapped v d = none := by
    rw [overTapped, d.find?_positions_none]
    exact fun q hq => decide_eq_false (Nat.not_lt.mpr (h.2 q hq))
  rw [measure, fullPage_eq_none.mpr fun k => (h.1 k).1, overPage_eq_none.mpr fun k => (h.1 k).2, under]

/-- The lowest FREE entry (R10). -/
theorem freeEntry_eq_some {s : State} {id : StreamId} :
    s.freeEntry = some id ↔ (s.entry id).isFree = true ∧ ∀ j, j < id → (s.entry j).isFree = false := by
  rw [freeEntry, allStreams, find?_finRange_eq_some]

theorem freeEntry_eq_none {s : State} : s.freeEntry = none ↔ ∀ j, (s.entry j).isFree = false := by
  simp [freeEntry, allStreams]

end State
end Sys2Proof.Machine
end

section
/-! SUPPORT. The judgements of Open, Alter and Handover. -/

namespace Sys2Proof.Machine

/-! ### Sorted positions -/

theorem mem_insertPos {p q : Pos} {l : List Pos} : q ∈ insertPos p l ↔ q = p ∨ q ∈ l := by
  induction l with
  | nil => simp [insertPos]
  | cons r l ih =>
    unfold insertPos
    split
    · simp
    · simp only [List.mem_cons, ih]; tauto

/-- Sorting keeps the positions of a list (R2). -/
@[simp] theorem mem_sortPositions {q : Pos} {l : List Pos} : q ∈ sortPositions l ↔ q ∈ l := by
  induction l with
  | nil => simp [sortPositions]
  | cons p l ih => simp [sortPositions, mem_insertPos, ih]

@[simp] theorem sortPositions_eq_nil {l : List Pos} : sortPositions l = [] ↔ l = [] := by
  simp only [List.eq_nil_iff_forall_not_mem, mem_sortPositions]

/-- Two positions with one octet are one position. -/
theorem octet_posNum_injective : Function.Injective fun p : Pos => octet (posNum p) := by
  intro p q e
  have e : (octet (posNum p)).toNat = (octet (posNum q)).toNat := congrArg BitVec.toNat e
  rw [octet_pos_toNat, octet_pos_toNat, posNum, posNum] at e
  exact Fin.ext (by omega)

/-! ### The six fields of Open and Alter -/

theorem flagOf_eq_some {n : Nat} {b : Bool} : flagOf n = some b ↔ n = b.toNat := by
  unfold flagOf
  split <;> cases b <;> simp_all

theorem policyOf_eq_some {n : Nat} {x : Policy} : policyOf n = some x ↔ n = x.code := by
  unfold policyOf
  split <;> cases x <;> simp_all [Policy.code]

/-- The six fields of a frame are in range and read as given (R2, R49). -/
theorem streamFieldsOf_eq_some {f : List Byte} {x : StreamFields} :
    streamFieldsOf f = some x ↔ ∃ ps : List Pos, (f.drop 10 = ps.map fun p => octet (posNum p)) ∧
      fieldsInRange (numAt f 5) (numAt f 6) (numAt f 7) ps ∧ numAt f 4 = x.ownerReceives.toNat ∧
      numAt f 8 = x.policy.code ∧
      x = { x with sinks := sortPositions ps, payload := numAt f 5, divisor := numAt f 6, phase := numAt f 7 } := by
  simp only [← positionsOf_eq_some, ← flagOf_eq_some, ← policyOf_eq_some]
  unfold streamFieldsOf fieldsInRange
  constructor
  · intro h
    split at h
    · next ps b y hp hf hy =>
      split at h
      · next hc =>
        cases h
        refine ⟨ps, hp, ?_, hf, hy, rfl⟩
        simpa [and_assoc] using hc
      · cases h
    · cases h
  · rintro ⟨ps, hp, hr, hf, hy, hx⟩
    rw [hp, hf, hy]
    dsimp only
    rw [if_pos (by simpa [and_assoc] using hr)]
    exact congrArg some hx.symm

/-- The frame of an Open or an Alter: its first parameter and the six fields as octets. -/
def fieldFrame (tag : Byte) (code : Nat) (a receives payload divisor phase policy : Byte) (sinks : List Byte) :
    List Byte := frameOf tag code (a :: rawFields receives payload divisor phase policy sinks)

section fieldFrame
variable {tag a receives payload divisor phase policy : Byte} {code : Nat} {sinks : List Byte}

/-- A frame with its fields is as long as its sink count calls for (R47). -/
theorem fieldFrame_wellFormed {k : RequestKind} (hk : k = .openStream ∨ k = .alter) (h : sinks.length ≤ 22) :
    frameWellFormed k (fieldFrame tag code a receives payload divisor phase policy sinks) = true := by
  have count : numAt (fieldFrame tag code a receives payload divisor phase policy sinks) 9 = sinks.length :=
    octet_toNat (by omega)
  have length : (fieldFrame tag code a receives payload divisor phase policy sinks).length = 10 + sinks.length := by
    simp only [fieldFrame, frameOf_length, rawFields, List.length_cons, List.length_append, List.length_nil]
    omega
  rcases hk with rfl | rfl <;> simp [frameWellFormed, frameLength, count, length]

/-- Fields out of range give no fields (R49). -/
theorem streamFieldsOf_rawOutOfRange (h : rawOutOfRange receives payload divisor phase policy sinks) :
    streamFieldsOf (fieldFrame tag code a receives payload divisor phase policy sinks) = none := by
  rw [Option.eq_none_iff_forall_ne_some]
  intro x hx
  obtain ⟨ps, hs, ⟨hl, hn, ⟨hp, hp'⟩, hd, hph⟩, hr, hy, -⟩ := streamFieldsOf_eq_some.mp hx
  have flag : receives.toNat = x.ownerReceives.toNat := hr
  have pol : policy.toNat = x.policy.code := hy
  have sinks_eq : sinks = ps.map fun p => octet (posNum p) := hs
  change divisor.toNat = 1 ∨ divisor.toNat = 2 ∨ divisor.toNat = 4 ∨ divisor.toNat = 8 at hd
  change phase.toNat < divisor.toNat at hph
  change 1 ≤ payload.toNat at hp
  change payload.toNat ≤ 32 at hp'
  rcases h with h | h | h | h | h | h | h | h | ⟨b, hb, h⟩
  · have := x.ownerReceives.toNat_le; omega
  · cases hx : x.policy <;> rw [hx] at pol <;> simp only [Policy.code] at pol <;> omega
  · rw [h] at hp; cases hp
  · omega
  · obtain ⟨h1, h2, h4, h8⟩ := h
    simp only [ne_eq, ← BitVec.toNat_inj] at h1 h2 h4 h8
    simp at h1 h2 h4 h8
    omega
  · omega
  · rw [sinks_eq, List.length_map] at h; omega
  · exact h (sinks_eq ▸ hn.map octet_posNum_injective)
  · rw [sinks_eq] at hb
    obtain ⟨p, -, rfl⟩ := List.mem_map.mp hb
    have := p.isLt
    rw [← BitVec.toNat_inj, octet_pos_toNat, posNum] at h
    simp at h
    omega

end fieldFrame

/-- The six fields as an Open or an Alter stores them, but for the policy of a NODE source: the sinks sorted. -/
def givenFields (receives : Bool) (payload divisor phase : Nat) (policy : Policy) (sinks : List Pos) :
    StreamFields :=
  { sinks := sortPositions sinks, ownerReceives := receives, payload := payload, divisor := divisor
    phase := phase, policy := policy }

/-- The fields of a frame in range (R2, R49). -/
theorem streamFieldsOf_fieldOctets {tag a : Byte} {code : Nat} {receives : Bool} {payload divisor phase : Nat}
    {policy : Policy} {sinks : List Pos} (h : fieldsInRange payload divisor phase sinks) :
    streamFieldsOf (frameOf tag code (a :: fieldOctets receives payload divisor phase policy sinks)) =
      some (givenFields receives payload divisor phase policy sinks) := by
  have ⟨_, _, _, hd, hph⟩ := h
  have div : divisor ≤ 8 := by omega
  generalize hf : frameOf tag code (a :: fieldOctets receives payload divisor phase policy sinks) = f
  have h5 : numAt f 5 = payload := hf ▸ octet_toNat (by omega)
  have h6 : numAt f 6 = divisor := hf ▸ octet_toNat (by omega)
  have h7 : numAt f 7 = phase := hf ▸ octet_toNat (by omega)
  rw [streamFieldsOf_eq_some, h5, h6, h7]
  refine ⟨sinks, hf ▸ rfl, h, ?_, ?_, rfl⟩
  · cases receives <;> exact hf ▸ rfl
  · cases policy <;> exact hf ▸ rfl

theorem fieldOctets_eq_rawFields (receives : Bool) (payload divisor phase : Nat) (policy : Policy)
    (sinks : List Pos) : fieldOctets receives payload divisor phase policy sinks =
      rawFields (flagOctet receives) (octet payload) (octet divisor) (octet phase) (octet policy.code)
        (sinks.map fun p => octet (posNum p)) := by simp [fieldOctets, rawFields]

/-! ### What a judgement reads -/

namespace State
variable (s : State) (q : Port) (g : List Byte)

@[simp] theorem beginItem_stagedView : (s.beginItem q g).stagedView = s.stagedView := rfl
@[simp] theorem beginItem_entry (id : StreamId) : (s.beginItem q g).entry id = s.entry id := rfl
@[simp] theorem beginItem_quotas : (s.beginItem q g).admission.quotas = s.admission.quotas := rfl
@[simp] theorem beginItem_unready (d : Descriptor) : (s.beginItem q g).unready d = s.unready d := rfl
@[simp] theorem beginItem_freeEntry : (s.beginItem q g).freeEntry = s.freeEntry := rfl
@[simp] theorem beginItem_overTapped (v : ViewTable) (d : Descriptor) :
    (s.beginItem q g).overTapped v d = s.overTapped v d := rfl
@[simp] theorem beginItem_measure (v : ViewTable) (p : Port) (d : Descriptor) :
    (s.beginItem q g).measure v p d = s.measure v p d := by
  simp only [measure, beginItem_quotas, beginItem_overTapped]

end State

/-! ### Open -/

/-- The source that an octet names (R192). -/
theorem sourceOf_code (src : Source) : sourceOf (octet src.code).toNat = some src := by
  cases src with
  | host => rfl
  | node p =>
    have h : posNum p ≠ 0 := Nat.succ_ne_zero _
    simp [sourceOf, Source.code, h]

theorem sourceOf_eq_some {b : Byte} {src : Source} (h : sourceOf b.toNat = some src) :
    b.toNat ≤ 15 ∧ b = octet src.code := by
  unfold sourceOf at h
  split at h
  · next h0 =>
    cases h
    exact ⟨by omega, BitVec.eq_of_toNat_eq h0⟩
  · obtain ⟨p, hp, rfl⟩ := Option.map_eq_some_iff.mp h
    have e := posOf_eq_some.mp hp
    have := p.isLt
    refine ⟨?_, ?_⟩
    · rw [e, posNum]; omega
    · rw [Source.code, ← e, octet_toNat_self]

/-- An Open without source, without fields or with parameters that do not agree (R49). -/
theorem judgeOpen_badArgument {p : Port} {f : List Byte} {s : State}
    (h : ∀ src x, sourceOf (numAt f 3) = some src → streamFieldsOf f = some x → openAgrees src x = false) :
    judgeOpen p f s = .error (.badArgument, 0) := by
  unfold judgeOpen
  split
  · next src x hs hx => rw [h src x hs hx]; rfl
  · rfl

theorem judgeOpen_beginItem (p q : Port) (f g : List Byte) (s : State) :
    judgeOpen p f (s.beginItem q g) = judgeOpen p f s := by simp [judgeOpen]

theorem RingState.allowsEdits_iff {st : RingState} : st.allowsEdits = true ↔ st = .running ∨ st = .broken := by
  cases st <;> simp [RingState.allowsEdits]

/-- Octets of an Open whose parameters do not agree (R49). -/
theorem openAgrees_of_raw {src : Byte} {source : Source} {x : StreamFields} {f sinks : List Byte}
    (hs : src = octet source.code) (hf : f.drop 10 = sinks) (hx : streamFieldsOf f = some x)
    (h : (src ≠ 0 ∧ src ∈ sinks) ∨ (src = 0 ∧ (sinks = [] ∨ octetAt f 4 = 1)) ∨
      (src ≠ 0 ∧ sinks = [] ∧ octetAt f 4 = 0)) : openAgrees source x = false := by
  obtain ⟨ps, hp, -, hr, -, hx⟩ := streamFieldsOf_eq_some.mp hx
  have sinks_eq : x.sinks = sortPositions ps := by rw [hx]
  rw [hf] at hp
  have none_iff : sinks = [] ↔ x.sinks = [] := by rw [hp, sinks_eq, List.map_eq_nil_iff, sortPositions_eq_nil]
  have receives (b : Bool) (hb : octetAt f 4 = flagOctet b) : x.ownerReceives = b := by
    have : b.toNat = x.ownerReceives.toNat := by rw [← hr, numAt, hb]; cases b <;> rfl
    revert this
    cases b <;> cases x.ownerReceives <;> simp
  subst hs
  unfold openAgrees
  cases source with
  | host =>
    rcases h with ⟨h0, -⟩ | ⟨-, h | h⟩ | ⟨h0, -⟩
    · exact absurd rfl h0
    · simp [none_iff.mp h]
    · simp [receives true h]
    · exact absurd rfl h0
  | node p =>
    rcases h with ⟨-, h⟩ | ⟨h0, -⟩ | ⟨-, h, h'⟩
    · rw [hp] at h
      obtain ⟨q, hq, e⟩ := List.mem_map.mp h
      have e : q = p := octet_posNum_injective e
      have mem : p ∈ x.sinks := by rw [sinks_eq, mem_sortPositions, ← e]; exact hq
      simp [mem]
    · have : (octet (posNum p)).toNat = 0 := congrArg BitVec.toNat h0
      rw [octet_pos_toNat, posNum] at this
      omega
    · simp [none_iff.mp h, receives false h']

/-- An Open whose parameters are in range and agree is judged by the ring state, the nodes, the entries and the
measures (R45, R50). -/
theorem judgeOpen_eq {p : Port} {f : List Byte} {src : Source} {x : StreamFields} {d : Descriptor}
    (hs : sourceOf (numAt f 3) = some src) (hx : streamFieldsOf f = some x) (ha : openAgrees src x = true)
    (hd : d = openedDescriptor p src x) (s : State) :
    (s.ring.state.allowsEdits = false → judgeOpen p f s = .error (.ringState, 0)) ∧
    (s.ring.state.allowsEdits = true →
      (∀ q, s.unready d = some q → judgeOpen p f s = .error (.nodeUnavailable, posNum q)) ∧
      (s.unready d = none →
        (s.freeEntry = none → judgeOpen p f s = .error (.noFreeEntry, 0)) ∧
        ∀ id, s.freeEntry = some id →
          (∀ e, s.measure (s.stagedView.set id (some d)) p d = .error e → judgeOpen p f s = .error e) ∧
          (s.measure (s.stagedView.set id (some d)) p d = .ok () →
            judgeOpen p f s = .ok { id := id, staged := some d, notices := [] }))) := by
  subst hd
  unfold judgeOpen
  rw [hs, hx]
  simp +contextual [ha]

/-- Parameters that agree (R3, R49). -/
theorem openAgrees_of {src : Source} {x : StreamFields} {sinks : List Pos} (hx : x.sinks = sortPositions sinks)
    (hhost : src = .host → sinks ≠ [] ∧ x.ownerReceives = false)
    (hnode : ∀ q, src = .node q → q ∉ sinks ∧ (sinks ≠ [] ∨ x.ownerReceives = true)) :
    openAgrees src x = true := by
  cases src with
  | host =>
    obtain ⟨hs, hr⟩ := hhost rfl
    simp [openAgrees, hx, hs, hr]
  | node q =>
    obtain ⟨hs, hr⟩ := hnode q rfl
    simpa [openAgrees, hx, hs] using hr

/-- Settles O23: the octets in range are the six fields, and each check of the judgement in its turn. -/
theorem openIsJudged : Obligations.OpenIsJudged := by
  refine ⟨fun s p tag src receives payload divisor phase policy sinks f hf hp ha hl hbad => ?_,
    fun s p tag src receives payload divisor phase policy sinks f d hf hd hp ha hr hhost hnode => ?_⟩
  · have hw := fieldFrame_wellFormed (tag := tag) (code := 1) (a := src) (receives := receives)
      (payload := payload) (divisor := divisor) (phase := phase) (policy := policy) (.inl rfl) hl
    change f = fieldFrame tag 1 src receives payload divisor phase policy sinks at hf
    refine congrArg _ (State.edit_refused hp ha (by rw [hf]; rfl) (hf ▸ hw) ?_)
    refine judgeOpen_badArgument fun source x hs hx => ?_
    rw [hf] at hs
    obtain ⟨small, code⟩ := sourceOf_eq_some (b := src) hs
    rcases hbad with h | h | h
    · omega
    · rw [hf, streamFieldsOf_rawOutOfRange h] at hx; cases hx
    · exact openAgrees_of_raw code (sinks := sinks) (by rw [hf]; rfl) hx (by rw [hf]; exact h)
  · have hk : frameKind f = some .openStream := by rw [hf]; rfl
    have hw : frameWellFormed .openStream f = true := by
      rw [hf, fieldOctets_eq_rawFields]
      exact fieldFrame_wellFormed (.inl rfl) (by rw [List.length_map]; exact hr.1.trans (by decide))
    have hx := streamFieldsOf_fieldOctets (tag := tag) (code := 1) (a := octet src.code) (receives := receives)
      (policy := policy) hr
    rw [← hf] at hx
    have hs : sourceOf (numAt f 3) = some src := by rw [hf]; exact sourceOf_code src
    obtain ⟨closed, opened⟩ :=
      judgeOpen_eq hs hx (openAgrees_of rfl hhost hnode) (hd.trans (by cases src <;> rfl)) s
    have refused {r : Reason} {n : Nat} (h : judgeOpen p f s = .error (r, n)) :
        exec .openStream s = .next (s.afterAnswer p f (.refused r n)) :=
      congrArg _ (State.edit_refused hp ha hk hw (by rw [judgeOpen_beginItem, h]))
    refine ⟨fun h => refused (closed ?_), fun h => ?_⟩
    · rw [Bool.eq_false_iff, ne_eq, RingState.allowsEdits_iff, not_or]; exact h
    obtain ⟨unready, ready⟩ := opened (RingState.allowsEdits_iff.mpr h)
    refine ⟨fun q hq => refused (unready q (State.unready_eq_some.mpr hq)), fun hready => ?_⟩
    obtain ⟨full, free⟩ := ready (State.unready_eq_none.mpr hready)
    refine ⟨fun h => refused (full (State.freeEntry_eq_none.mpr h)), fun id hid hlow => ?_⟩
    obtain ⟨measured, fits⟩ := free id (State.freeEntry_eq_some.mpr ⟨hid, hlow⟩)
    refine ⟨fun r n h => refused (measured _ (State.measure_of_exceeds h)), fun h => ?_⟩
    exact congrArg _ (State.edit_accepted hp ha hk hw
      (by rw [judgeOpen_beginItem, fits (State.measure_of_fits h)]))

/-! ### Alter -/

theorem judgeAlter_beginItem (p q : Port) (f g : List Byte) (s : State) :
    judgeAlter p f (s.beginItem q g) = judgeAlter p f s := by simp [judgeAlter]

/-- An Alter without a stream id or without fields (R51). -/
theorem judgeAlter_badArgument {p : Port} {f : List Byte} {s : State}
    (h : streamOf (numAt f 3) = none ∨ streamFieldsOf f = none) :
    judgeAlter p f s = .error (.badArgument, 0) := by
  unfold judgeAlter
  split
  · next id x hi hx => rcases h with h | h <;> simp_all
  · rfl

/-- An Alter in range is judged by the ring state, the staged view, the stored source and subscribers, the nodes
and the measures (R45, R51, R52). -/
theorem judgeAlter_eq {p : Port} {f : List Byte} {id : StreamId} {x : StreamFields}
    (hi : streamOf (numAt f 3) = some id) (hx : streamFieldsOf f = some x) (s : State) :
    (s.ring.state.allowsEdits = false → judgeAlter p f s = .error (.ringState, 0)) ∧
    (s.ring.state.allowsEdits = true →
      ((s.entry id).staged = none → judgeAlter p f s = .error (.noSuchStream, 0)) ∧
      ∀ old d, (s.entry id).staged = some old → d = alteredDescriptor old x →
        (old.owner ≠ p → judgeAlter p f s = .error (.notOwner, 0)) ∧
        (old.owner = p → alterAgrees old x = false → judgeAlter p f s = .error (.badArgument, 0)) ∧
        (old.owner = p → alterAgrees old x = true →
          (∀ q, s.unready d = some q → judgeAlter p f s = .error (.nodeUnavailable, posNum q)) ∧
          (s.unready d = none →
            (∀ e, s.measure (s.stagedView.set id (some d)) p d = .error e → judgeAlter p f s = .error e) ∧
            (s.measure (s.stagedView.set id (some d)) p d = .ok () →
              judgeAlter p f s = .ok { id := id, staged := some d, notices := [] })))) := by
  unfold judgeAlter
  rw [hi, hx]
  simp +contextual

/-- The six new fields agree with the stored source and subscribers (R51). -/
theorem alterAgrees_iff {old : Descriptor} {x : StreamFields} {sinks : List Pos}
    (hx : x.sinks = sortPositions sinks) :
    alterAgrees old x = true ↔ match old.source with
      | .host => sinks ≠ [] ∧ x.ownerReceives = false
      | .node q => q ∉ sinks ∧ (sinks ≠ [] ∨ x.ownerReceives = true ∨ old.subscribers ≠ []) := by
  unfold alterAgrees
  cases old.source <;> simp [hx, or_assoc]

/-- Settles O24: the octets in range are the six fields, and each check of the judgement in its turn. -/
theorem alterIsJudged : Obligations.AlterIsJudged := by
  refine ⟨fun s p tag id receives payload divisor phase policy sinks f hf hp ha hl hbad => ?_,
    fun s p tag id receives payload divisor phase policy sinks f hf hp ha hr => ?_⟩
  · have hw := fieldFrame_wellFormed (tag := tag) (code := 2) (a := id) (receives := receives)
      (payload := payload) (divisor := divisor) (phase := phase) (policy := policy) (.inr rfl) hl
    change f = fieldFrame tag 2 id receives payload divisor phase policy sinks at hf
    refine congrArg _ (State.edit_refused hp ha (by rw [hf]; rfl) (hf ▸ hw) ?_)
    refine judgeAlter_badArgument (hbad.imp (fun h => ?_) fun h => ?_)
    · rw [hf]; exact streamOf_eq_none.mpr h
    · rw [hf]; exact streamFieldsOf_rawOutOfRange h
  · have hk : frameKind f = some .alter := by rw [hf]; rfl
    have hw : frameWellFormed .alter f = true := by
      rw [hf, fieldOctets_eq_rawFields]
      exact fieldFrame_wellFormed (.inr rfl) (by rw [List.length_map]; exact hr.1.trans (by decide))
    have hx := streamFieldsOf_fieldOctets (tag := tag) (code := 2) (a := octet id.val) (receives := receives)
      (policy := policy) hr
    rw [← hf] at hx
    have hi : streamOf (numAt f 3) = some id := by
      rw [hf]; exact (congrArg streamOf (octet_stream_toNat id)).trans (streamOf_val id)
    obtain ⟨closed, opened⟩ := judgeAlter_eq (p := p) hi hx s
    have refused {r : Reason} {n : Nat} (h : judgeAlter p f s = .error (r, n)) :
        exec .alter s = .next (s.afterAnswer p f (.refused r n)) :=
      congrArg _ (State.edit_refused hp ha hk hw (by rw [judgeAlter_beginItem, h]))
    refine ⟨fun h => refused (closed ?_), fun h => ?_⟩
    · rw [Bool.eq_false_iff, ne_eq, RingState.allowsEdits_iff, not_or]; exact h
    obtain ⟨absent, present⟩ := opened (RingState.allowsEdits_iff.mpr h)
    refine ⟨fun h => refused (absent h), fun old hold => ?_⟩
    intro d agrees
    have hd : d = alteredDescriptor old (givenFields receives payload divisor phase policy sinks) := by
      obtain ⟨_, source, _, _, _, _, _, _, _⟩ := old
      cases source <;> rfl
    have agrees_iff : alterAgrees old (givenFields receives payload divisor phase policy sinks) = true ↔ agrees := by
      refine (alterAgrees_iff rfl).trans ?_
      simp only [agrees]
      cases old.source <;> rfl
    obtain ⟨foreign, disagrees, agreed⟩ := present old d hold hd
    refine ⟨fun h => refused (foreign h), fun h ha => refused (disagrees h ?_), fun h ha => ?_⟩
    · rwa [Bool.eq_false_iff, ne_eq, agrees_iff]
    obtain ⟨unready, ready⟩ := agreed h (agrees_iff.mpr ha)
    refine ⟨fun q hq => refused (unready q (State.unready_eq_some.mpr hq)), fun hready => ?_⟩
    obtain ⟨measured, fits⟩ := ready (State.unready_eq_none.mpr hready)
    refine ⟨fun r n h => refused (measured _ (State.measure_of_exceeds h)), fun h => ?_⟩
    exact congrArg _ (State.edit_accepted hp ‹_› hk hw
      (by rw [judgeAlter_beginItem, fits (State.measure_of_fits h)]))

end Sys2Proof.Machine
end

section
/-! SUPPORT. Notices posted one after another, the judgement of a Handover. -/

namespace Sys2Proof.Machine

/-- A cell of a table, after changes made one after another, holds its own changes in their order. -/
theorem Table.get_foldl_modify {α β : Type} {n : Nat} (f : β → α → α) (l : List (Fin n × β)) (t : Table α n)
    (i : Fin n) :
    (l.foldl (fun t x => t.modify x.1 (f x.2)) t).get i =
      ((l.filter fun x => x.1 == i).map Prod.snd).foldl (fun a b => f b a) (t.get i) := by
  induction l generalizing t with
  | nil => rfl
  | cons x l ih =>
    rw [List.foldl_cons, ih, Table.get_modify, List.filter_cons]
    by_cases h : x.1 = i <;> simp [h]

/-! ### Notices -/

@[simp] theorem HostPort.postEach_nil (h : HostPort) : h.postEach [] = h := rfl
@[simp] theorem HostPort.postEach_cons (h : HostPort) (n : Notice) (l : List Notice) :
    h.postEach (n :: l) = (h.post n).postEach l := rfl

namespace State

/-- A port hears the notices posted to it, in their order (R62). -/
theorem postAll_port (s : State) (l : List (Port × Notice)) (q : Port) :
    (s.postAll l).port q = (s.port q).postEach ((l.filter fun x => x.1 == q).map Prod.snd) :=
  Table.get_foldl_modify (fun (n : Notice) (h : HostPort) => h.post n) l s.ports q

theorem finishItem_port_self (s : State) (p : Port) (f : List Byte) (r : Reply) :
    (s.finishItem p f r).port p = (s.port p).placeAnswer (frameTag f) (frameKindOctet f) r :=
  Table.get_modify_self _ _ _

theorem finishItem_port_ne (s : State) {p q : Port} (f : List Byte) (r : Reply) (h : p ≠ q) :
    (s.finishItem p f r).port q = s.port q := Table.get_modify_ne _ _ h

theorem beginItem_port_ne (s : State) {p q : Port} (f : List Byte) (h : p ≠ q) :
    (s.beginItem p f).port q = s.port q := Table.get_modify_ne _ _ h

/-- An accepted edit with its notices (R18, R19, R48; log 20). -/
theorem edit_told {s : State} {p : Port} {f : List Byte} {k : RequestKind}
    {judge : Port → List Byte → State → Except Denial Edit} {e : Edit}
    (hp : s.pick = some (p, f)) (ha : (s.port p).attached = true) (hk : frameKind f = some k)
    (hw : frameWellFormed k f = true) (hj : judge p f (s.beginItem p f) = .ok e) :
    s.takeRequest k (editing judge) =
      (((s.afterEdit p e.id e.staged).beginItem p f).postAll e.notices).finishItem p f
        (.accepted e.id s.admission.ticket) := by
  rw [takeRequest_wellFormed _ hp ha hk hw]
  unfold runItem editing
  rw [hj]
  dsimp only
  rw [applyEdit_beginItem]

/-- An item whose effect posts notices to other ports leaves its own port and the rest as without them (R48,
R62). -/
theorem told_finishItem {u : State} (p : Port) (f : List Byte) (l : List (Port × Notice)) (r : Reply)
    (hu : u.admission.processing = none) (hl : ∀ x ∈ l, x.1 ≠ p) :
    ((u.beginItem p f).postAll l).finishItem p f r =
        { u.afterAnswer p f r with ports := (((u.beginItem p f).postAll l).finishItem p f r).ports } ∧
      (((u.beginItem p f).postAll l).finishItem p f r).port p = (u.afterAnswer p f r).port p ∧
      ∀ q, q ≠ p → (((u.beginItem p f).postAll l).finishItem p f r).port q =
        (u.port q).postEach ((l.filter fun x => x.1 == q).map Prod.snd) := by
  refine ⟨?_, ?_, fun q hq => ?_⟩
  · rw [← finishItem_beginItem p f r hu]; rfl
  · rw [← finishItem_beginItem p f r hu, finishItem_port_self, finishItem_port_self, postAll_port,
      List.filter_eq_nil_iff.mpr fun x hx => by simpa using hl x hx]
    rfl
  · rw [finishItem_port_ne _ _ _ hq.symm, postAll_port, beginItem_port_ne _ _ hq.symm]

end State

/-! ### Handover -/

theorem judgeHandover_beginItem (p q : Port) (f g : List Byte) (s : State) :
    judgeHandover p f (s.beginItem q g) = judgeHandover p f s := by simp [judgeHandover]

/-- A Handover without a stream id or without a port (R56). -/
theorem judgeHandover_badArgument {p : Port} {f : List Byte} {s : State}
    (h : streamOf (numAt f 3) = none ∨ portOf (numAt f 4) = none) :
    judgeHandover p f s = .error (.badArgument, 0) := by
  unfold judgeHandover
  split
  · next id x hi hx => rcases h with h | h <;> simp_all
  · rfl

/-- A Handover in range is judged by the ring state, the staged view, its owner and list, and the quota of the port
that receives it (R45, R56). -/
theorem judgeHandover_eq {p q : Port} {f : List Byte} {id : StreamId} (hi : streamOf (numAt f 3) = some id)
    (hq : portOf (numAt f 4) = some q) (s : State) :
    (s.ring.state.allowsEdits = false → judgeHandover p f s = .error (.ringState, 0)) ∧
    (s.ring.state.allowsEdits = true →
      ((s.entry id).staged = none → judgeHandover p f s = .error (.noSuchStream, 0)) ∧
      ∀ d, (s.entry id).staged = some d →
        (d.owner ≠ p → judgeHandover p f s = .error (.notOwner, 0)) ∧
        (d.owner = p → q ∉ d.subscribers → judgeHandover p f s = .error (.notSubscriber, 0)) ∧
        (d.owner = p → q ∈ d.subscribers →
          (∀ k, overPage (s.stagedView.set id (some (d.passTo q))) q (s.admission.quotas.get q) = some k →
            judgeHandover p f s = .error (.overQuota, k.val)) ∧
          (overPage (s.stagedView.set id (some (d.passTo q))) q (s.admission.quotas.get q) = none →
            judgeHandover p f s =
              .ok { id := id, staged := some (d.passTo q), notices := [(q, .streamGained id p)] }))) := by
  unfold judgeHandover
  rw [hi, hq]
  simp +contextual

/-- Settles O27: each check of the judgement in its turn, and one notice to the new owner. -/
theorem handoverIsJudged : Obligations.HandoverIsJudged := by
  intro s p tag a b f hf hp ha
  have hk : frameKind f = some .handover := by rw [hf]; rfl
  have hw : frameWellFormed .handover f = true := by rw [hf]; rfl
  have refused {r : Reason} {n : Nat} (h : judgeHandover p f s = .error (r, n)) :
      exec .handover s = .next (s.afterAnswer p f (.refused r n)) :=
    congrArg _ (State.edit_refused hp ha hk hw (by rw [judgeHandover_beginItem, h]))
  refine ⟨fun h => refused (judgeHandover_badArgument ?_), fun id q hida hqb => ?_⟩
  · rw [hf]
    exact h.imp streamOf_eq_none.mpr portOf_eq_none.mpr
  have hi : streamOf (numAt f 3) = some id := by
    rw [hf, hida]; exact (congrArg streamOf (octet_stream_toNat id)).trans (streamOf_val id)
  have hq : portOf (numAt f 4) = some q := by
    rw [hf, hqb]; exact (congrArg portOf (octet_port_toNat q)).trans (portOf_val q)
  obtain ⟨closed, opened⟩ := judgeHandover_eq (p := p) hi hq s
  refine ⟨fun h => refused (closed ?_), fun h => ?_⟩
  · rw [Bool.eq_false_iff, ne_eq, RingState.allowsEdits_iff, not_or]; exact h
  obtain ⟨absent, present⟩ := opened (RingState.allowsEdits_iff.mpr h)
  refine ⟨fun h => refused (absent h), fun d hd => ?_⟩
  obtain ⟨foreign, stranger, passes⟩ := present d hd
  refine ⟨fun h => refused (foreign h), fun h hn => refused (stranger h hn), ?_⟩
  intro before after' d' howner hsub hfirst hd'
  have hpass : d.passTo q = d' := by
    rw [hd', Descriptor.passTo, hsub, List.erase_append_right _ hfirst, List.erase_cons_head]
  obtain ⟨above, fits⟩ := passes howner (by rw [hsub]; simp)
  rw [hpass] at above fits
  refine ⟨fun k h => refused (above k (State.overPage_eq_some.mpr h)), fun h hne => ?_⟩
  have told := State.edit_told hp ha hk hw
    ((judgeHandover_beginItem p p f f s).trans (fits (State.overPage_eq_none.mpr h)))
  obtain ⟨frame, own, others⟩ := State.told_finishItem (u := s.afterEdit p id (some d')) p f [(q, .streamGained id p)]
    (.accepted id s.admission.ticket) (State.processing_of_pick (s := s) hp) (by simpa using hne.symm)
  refine ⟨_, congrArg Host.Outcome.next told, frame, own, ?_, fun r hr hrq => ?_⟩
  · rw [others q hne.symm]; simp; rfl
  · rw [others r hr]; simp [hrq.symm]; rfl

end Sys2Proof.Machine
end

section
/-! SUPPORT. The three queries (R21, R37, R143). -/

namespace Sys2Proof.Machine

theorem padTo_length (n : Nat) (l : List Byte) : (padTo n l).length = n := by simp [padTo]

/-- Octets laid out three to an index, read by index. -/
theorem octetAt_flatMap_three {n : Nat} (a b c : Fin n → Byte) (rest : List Byte) (k : Fin n) :
    octetAt ((List.finRange n).flatMap (fun i => [a i, b i, c i]) ++ rest) (3 * k.val) = a k ∧
    octetAt ((List.finRange n).flatMap (fun i => [a i, b i, c i]) ++ rest) (3 * k.val + 1) = b k ∧
    octetAt ((List.finRange n).flatMap (fun i => [a i, b i, c i]) ++ rest) (3 * k.val + 2) = c k := by
  induction n with
  | zero => exact k.elim0
  | succ n ih =>
    rw [List.finRange_succ, List.flatMap_cons, List.flatMap_map]
    cases k using Fin.cases with
    | zero => exact ⟨rfl, rfl, rfl⟩
    | succ k =>
      have step := ih (fun i => a i.succ) (fun i => b i.succ) (fun i => c i.succ) k
      simp only [Fin.val_succ, Nat.mul_succ]
      exact step

theorem flatMap_three_length {n : Nat} (a b c : Fin n → Byte) :
    ((List.finRange n).flatMap fun i => [a i, b i, c i]).length = 3 * n := by
  simp [List.length_flatMap, Nat.mul_comm]

theorem occupancyFigures_length (v : ViewTable) (p : Port) : (occupancyFigures v p).length = 24 :=
  flatMap_three_length (n := 8) _ _ _

theorem octetAt_occupancyFigures (v : ViewTable) (p : Port) (rest : List Byte) (k : Page) :
    octetAt (occupancyFigures v p ++ rest) (3 * k.val) = octet (pageTotal v k) ∧
    octetAt (occupancyFigures v p ++ rest) (3 * k.val + 1) = octet (224 - pageTotal v k) ∧
    octetAt (occupancyFigures v p ++ rest) (3 * k.val + 2) = octet (usage v p k) :=
  octetAt_flatMap_three _ _ _ rest k

theorem octetAt_cons_succ (b : Byte) (l : List Byte) (n : Nat) : octetAt (b :: l) (n + 1) = octetAt l n := rfl

theorem octetAt_append_add (l m : List Byte) {n i : Nat} (h : l.length = n) :
    octetAt (l ++ m) (n + i) = octetAt m i := by
  subst h
  simp [octetAt, List.getElem?_append_right]

/-- A request that answers DONE and changes nothing (R41, R48). -/
theorem State.query_answered {s : State} {p : Port} {f : List Byte} {k : RequestKind}
    {act : Port → List Byte → Effect} {data : List Byte} (hp : s.pick = some (p, f))
    (ha : (s.port p).attached = true) (hk : frameKind f = some k) (hw : frameWellFormed k f = true) {u : State}
    (hu : u.admission.processing = none)
    (hact : act p f (s.beginItem p f) = answered (u.beginItem p f) data) :
    s.takeRequest k act = u.afterAnswer p f (.done data) := by
  rw [State.takeRequest_wellFormed _ hp ha hk hw]
  exact State.runItem_answers hact hu

/-- The taking of a frame changes no figure of an Occupancy Query (R37). -/
theorem actOccupancyQuery_beginItem (p q : Port) (f g : List Byte) (s : State) :
    actOccupancyQuery p f (s.beginItem q g) = answered (s.beginItem q g)
      (octet (s.admission.quotas.get p) :: (occupancyFigures s.stagedView p ++ occupancyFigures s.inForceView p)) := by
  have hv : (s.beginItem q g).inForceView = s.inForceView := rfl
  unfold actOccupancyQuery
  rw [State.beginItem_stagedView, State.beginItem_quotas, hv]

/-- Settles O28: each query's effect, evaluated at the item in processing. -/
theorem queriesAnswerTables : Obligations.QueriesAnswerTables := by
  intro s p tag f hp ha
  have idle : s.admission.processing = none := State.processing_of_pick (s := s) hp
  refine ⟨fun id hf => ?_, fun q hf => ?_, fun hf => ?_⟩
  · have hi : streamOf (numAt f 3) = some id := by
      rw [hf]; exact (congrArg streamOf (octet_stream_toNat id)).trans (streamOf_val id)
    refine congrArg Host.Outcome.next (State.query_answered hp ha (by rw [hf]; rfl) (by rw [hf]; rfl) idle ?_)
    unfold actStreamQuery
    rw [hi]; rfl
  · have hq : posOf (numAt f 3) = some q := by
      rw [hf]; exact (congrArg posOf (octet_pos_toNat q)).trans (posOf_posNum q)
    refine ⟨padTo 7 (Config.absentIdentity s.freeCount), padTo_length _ _, congrArg Host.Outcome.next
      (State.query_answered hp ha (by rw [hf]; rfl) (by rw [hf]; rfl) idle ?_)⟩
    unfold actNodeQuery nodeQueryData
    rw [hq]
    simp only [show (s.beginItem p f).node q = s.node q from rfl]
    cases (s.node q).identity <;> rfl
  · have asked := State.query_answered hp ha (k := .occupancyQuery) (by rw [hf]; rfl) (by rw [hf]; rfl) idle
      (actOccupancyQuery_beginItem p p f f s)
    refine ⟨octet (s.admission.quotas.get p) :: (occupancyFigures s.stagedView p ++
      occupancyFigures s.inForceView p), ?_, ?_, List.head?_cons, fun k => ?_⟩
    · exact congrArg Host.Outcome.next asked
    · simp [occupancyFigures_length]
    · obtain ⟨total, free, own⟩ := octetAt_occupancyFigures s.stagedView p (occupancyFigures s.inForceView p) k
      obtain ⟨total', free', own'⟩ := octetAt_occupancyFigures s.inForceView p [] k
      rw [List.append_nil] at total' free' own'
      have staged (i : Nat) := octetAt_cons_succ (octet (s.admission.quotas.get p))
        (occupancyFigures s.stagedView p ++ occupancyFigures s.inForceView p) i
      have inForce (i : Nat) := octetAt_append_add (occupancyFigures s.stagedView p)
        (occupancyFigures s.inForceView p) (i := i) (occupancyFigures_length _ _)
      refine ⟨?_, ?_, ?_, ?_, ?_, ?_⟩
      · rw [Nat.add_comm, staged, total]
      · rw [show 2 + 3 * k.val = 3 * k.val + 1 + 1 by omega, staged, free]
      · rw [show 3 + 3 * k.val = 3 * k.val + 2 + 1 by omega, staged, own]
      · rw [show 25 + 3 * k.val = 24 + 3 * k.val + 1 by omega, staged, inForce, total']
      · rw [show 26 + 3 * k.val = 24 + (3 * k.val + 1) + 1 by omega, staged, inForce, free']
      · rw [show 27 + 3 * k.val = 24 + (3 * k.val + 2) + 1 by omega, staged, inForce, own']

end Sys2Proof.Machine
end

section
/-! SUPPORT. The freeze (R72, R73, R125). -/

namespace Sys2Proof.Machine

theorem mem_allPositions (p : Pos) : p ∈ allPositions := List.mem_finRange p

namespace State

theorem guarded_eq_false {s : State}
    (h : ∀ p, (s.node p).state = .stale → (s.node p).held ≠ some (s.turnover.epoch + 1)) :
    s.guarded = false := by
  unfold guarded
  rw [List.any_eq_false]
  intro p _
  simpa [NodeEntry.guards] using h p

/-- A due claim granted with no guard freezes (R70, R72). -/
theorem execFreeze_of_due {s : State} (hproc : s.admission.processing = none) (hint : s.admission.internal = [])
    (hdue : s.turnover.freezeDue = true) (hrun : s.ring.state = .running) (hguard : s.guarded = false) :
    execFreeze s = .next s.makeFreeze := by
  simp [execFreeze, grantFreeze, running, hproc, hint, hdue, hrun, hguard]

@[simp] theorem workItemFor_position (a b : Plan) (p : Pos) : (workItemFor a b p).position = p := by
  unfold workItemFor; split <;> rfl

theorem workItemFor_fresh (a b : Plan) (p : Pos) :
    (workItemFor a b p).next = 1 ∧ (workItemFor a b p).outcome = .opened := by
  unfold workItemFor; split <;> exact ⟨rfl, rfl⟩

end State

theorem partCount_bounds (l : List Tap) :
    1 ≤ partCount l ∧ l.length ≤ 3 * partCount l ∧ (3 * partCount l < l.length + 3 ∨ partCount l = 1) := by
  unfold partCount; omega

theorem Control.endRefresh_refresh (c : Control) :
    (∀ x, c.exchange = some x → x.user = .refresh →
      c.endRefresh.refresh = c.refresh.map fun f => { f with ended := true }) ∧
    ((∀ x, c.exchange = some x → x.user ≠ .refresh) → c.endRefresh.refresh = none) := by
  unfold Control.endRefresh Control.drops
  cases c.exchange <;> simp +contextual

/-- Settles O40: the effect of `makeFreeze`, field by field. -/
theorem freezeBeginsTurnover : Obligations.FreezeBeginsTurnover := by
  intro s hproc hint hdue hrun hguard
  obtain ⟨ended, dropped⟩ := s.control.endRefresh_refresh
  refine ⟨s.makeFreeze, _, State.execFreeze_of_due hproc hint hdue hrun (State.guarded_eq_false hguard), rfl,
    rfl, ended, dropped, fun id => Table.get_map _ _ _, ?_, ?_, ?_⟩
  · have empty : ((allPositions.filter s.ready).map
        (workItemFor (compile s.stagedView (s.turnover.epoch + 1)) s.plans.inForce)).isEmpty = true ↔
          ∀ p, (s.node p).state ≠ .ready := by
      simp [List.filter_eq_nil_iff, mem_allPositions, State.ready]
    unfold State.makeFreeze
    simp only [empty]
  · unfold State.makeFreeze
    simp [List.map_map, Function.comp_def]
    rfl
  · intro w hw
    obtain ⟨p, -, rfl⟩ := List.mem_map.mp hw
    refine ⟨(State.workItemFor_fresh _ _ p).1, (State.workItemFor_fresh _ _ p).2, ?_⟩
    rw [State.workItemFor_position]
    unfold workItemFor
    split
    · exact ⟨rfl, rfl⟩
    · exact ⟨rfl, partCount_bounds _⟩

end Sys2Proof.Machine
end

section
/-! SUPPORT. The reconciliation (R8, R138, R139). -/

namespace Sys2Proof.Machine

/-! ### Old and new positions -/

theorem takingPart_eq_some {e : NodeEntry} {x : BitVec 32} : e.takingPart = some x ↔ e.partakes x := by
  unfold NodeEntry.takingPart NodeEntry.partakes
  cases e.state <;> simp

theorem mem_holders {t : Table NodeEntry 15} {x : BitVec 32} {p : Pos} : p ∈ holders t x ↔ (t.get p).partakes x := by
  simp [holders, mem_allPositions, takingPart_eq_some]

theorem holders_nodup (t : Table NodeEntry 15) (x : BitVec 32) : (holders t x).Nodup :=
  (List.nodup_finRange 15).filter _

/-- One entry alone holds a serial (R138). -/
theorem holders_eq_singleton {t : Table NodeEntry 15} {x : BitVec 32} {q : Pos} :
    holders t x = [q] ↔ (t.get q).partakes x ∧ ∀ q', (t.get q').partakes x → q' = q := by
  constructor
  · intro h
    refine ⟨mem_holders.mp (by simp [h]), fun q' hq' => ?_⟩
    simpa [h] using mem_holders.mpr hq'
  · rintro ⟨hq, only⟩
    refine List.perm_singleton.mp ((List.perm_ext_iff_of_nodup (holders_nodup t x) (List.nodup_singleton q)).mpr
      fun q' => ?_)
    rw [mem_holders, List.mem_singleton]
    exact ⟨only q', fun h => h ▸ hq⟩

/-- The new position of an old one is the one R138 gives. -/
theorem newPosition_eq_some {old new : Table NodeEntry 15} {p q : Pos} :
    newPosition old new p = some q ↔ mapsTo old new p q := by
  constructor
  · intro h
    unfold newPosition at h
    split at h
    · cases h
    · next x hx =>
      split at h
      · next p' q' hold hnew =>
        obtain rfl : q' = q := Option.some.inj h
        obtain ⟨-, only⟩ := holders_eq_singleton.mp hold
        have hp := takingPart_eq_some.mp hx
        obtain rfl := only p hp
        obtain ⟨hq, onlyNew⟩ := holders_eq_singleton.mp hnew
        exact ⟨x, hp, hq, only, onlyNew⟩
      · cases h
  · rintro ⟨x, hp, hq, only, onlyNew⟩
    simp [newPosition, takingPart_eq_some.mpr hp, holders_eq_singleton.mpr ⟨hp, only⟩,
      holders_eq_singleton.mpr ⟨hq, onlyNew⟩]

/-! ### Entries for the gone nodes -/

/-- Entries of distinct subjects are all queued, in their order (R57). -/
theorem foldl_enqueue {l m : List InternalEntry} (h : (l ++ m).Pairwise fun a b => b.sameSubject a = false) :
    m.foldl enqueue l = l ++ m := by
  induction m generalizing l with
  | nil => simp
  | cons e m ih =>
    have fresh : l.any e.sameSubject = false := by
      rw [List.any_eq_false]
      intro a ha
      rw [List.pairwise_append] at h
      simp [h.2.2 a ha e (by simp)]
    have queued : enqueue l e = l ++ [e] := by simp [enqueue, fresh]
    rw [List.foldl_cons, queued, ih (by simpa using h), List.append_assoc]
    rfl

theorem goneNodes_entries_distinct (old new : Table NodeEntry 15) (refs : Pos → List (StreamId × RefRole)) :
    ((goneNodes old new).map fun p => InternalEntry.changed p (refs p)).Pairwise
      fun a b => b.sameSubject a = false := by
  rw [List.pairwise_map]
  have distinct : (goneNodes old new).Nodup := (List.nodup_finRange 15).filter _
  refine List.Pairwise.imp (fun {p q} hne => ?_) distinct
  simpa [InternalEntry.sameSubject] using hne.symm

/-- The entry into RUNNING at a port (R102, R105). -/
theorem HostPort.ringChanged_running (h : HostPort) (reason : RingReason) :
    h.ringChanged .running 0 reason = (h.post (.ringState .running 0 reason)).raise .ringChange := rfl

theorem referenceList_stagedView (s : State) (p : Pos) :
    referenceList s.stagedView p = allStreams.flatMap fun id =>
      match (s.entry id).staged with
      | some d =>
        (if d.source = .node p then [(id, .source)] else []) ++
          (d.sinks.filter (· == p)).map fun _ => (id, .sink)
      | none => [] := by
  unfold referenceList
  congr
  funext id
  rw [State.stagedView_get]
  cases (s.entry id).staged with
  | none => rfl
  | some d =>
    simp only [Descriptor.refsTo, List.map_append, List.map_map, apply_ite (List.map _), List.map_cons, List.map_nil]
    rfl

/-- A reconciliation claim is granted between items (R42, R139). -/
theorem execReconciliation_of_due {s : State} {old : Retained} (hproc : s.nodes.procedure = .reconciling)
    (hold : s.nodes.retained = some old) (hitem : s.admission.processing = none) (hint : s.admission.internal = []) :
    execReconciliation s = .next (s.reconcile old) := by
  simp [execReconciliation, hproc, hold, hitem, hint]

/-- Settles O41: the effect of `State.reconcile`, with `newPosition` as the positions moved. -/
theorem reconciliationEntersRunning : Obligations.ReconciliationEntersRunning := by
  intro s old hproc hold hitem hint hflight
  have turned : s.turnover.reconciled = { s.turnover with state := .waiting, gather := 0, claim := false } := by
    simp [Turnover.reconciled, hflight]
  refine ⟨s.reconcile old, newPosition old.entries s.nodes.entries, execReconciliation_of_due hproc hold hitem hint,
    fun _ _ => newPosition_eq_some, ?_, ?_, fun id => ?_, fun q => ?_⟩
  · unfold State.reconcile
    rw [turned]
    rfl
  · have queued := foldl_enqueue (l := []) (goneNodes_entries_distinct old.entries s.nodes.entries
      (referenceList s.stagedView))
    show ((goneNodes old.entries s.nodes.entries).map _).foldl enqueue s.admission.internal = _
    rw [hint, queued, List.nil_append]
    unfold goneNodes
    congr
    funext p
    exact congrArg (InternalEntry.changed p) (referenceList_stagedView s p)
  · exact Table.get_map _ _ _
  · exact (Table.get_map _ _ _).trans (HostPort.ringChanged_running _ _)

end Sys2Proof.Machine
end

section
/-! SUPPORT. The end of the quiet cycles (R102, R108). -/

namespace Sys2Proof.Machine

theorem viewNames_eq_true {q : Port} {v : Option Descriptor} :
    viewNames q v = true ↔ ∃ d ∈ v.toList, d.owner = q ∨ q ∈ d.subscribers := by
  cases v <;> simp [viewNames, List.contains_eq_mem]

/-- What one port hears of a list of notices made port by port: its own, once. -/
theorem filter_allPorts_notices (heard : Port → Bool) (n : Port → Notice) (q : Port) :
    (((allPorts.filter heard).map fun p => (p, n p)).filter fun x => x.1 == q).map Prod.snd =
      if heard q then [n q] else [] := by
  have once : allPorts.filter (· == q) = [q] := by revert q; decide
  have own : (allPorts.filter heard).filter (· == q) = if heard q then [q] else [] := by
    rw [List.filter_comm, once, List.filter_singleton]
    simp
  rw [List.filter_map, List.map_map]
  refine (congrArg (List.map _) own).trans ?_
  split <;> rfl

/-- A port hears of the streams that name it as owner or subscriber, in ascending stream id (R63, R108). -/
theorem State.stoppedNotices_heard (s : State) (q : Port) :
    (s.stoppedNotices.filter fun x => x.1 == q).map Prod.snd = allStreams.flatMap fun id =>
      if ∃ d ∈ (s.entry id).staged.toList ++ (s.entry id).inForce.toList, d.owner = q ∨ q ∈ d.subscribers then
        [.streamClosed id .ringStopped none]
      else [] := by
  unfold State.stoppedNotices
  rw [List.filter_flatMap, List.map_flatMap]
  congr
  funext id
  rw [filter_allPorts_notices]
  refine if_congr ?_ rfl rfl
  simp only [Bool.or_eq_true, viewNames_eq_true, List.mem_append, or_and_right, exists_or]

theorem State.enterOff_port (s : State) (q : Port) :
    s.enterOff.port q =
      ((({ (s.port q).postEach ((s.stoppedNotices.filter fun x => x.1 == q).map Prod.snd) with
          gaps := Table.fill 0 } : HostPort).post (.ringState .off 0 .stopped)).raise .ringDown) := by
  rw [← State.postAll_port]
  exact (Table.get_map _ _ _).trans (congrArg (HostPort.ringChanged · .off 0 .stopped) (Table.get_map _ _ _))

/-- Settles O46: the two destinations of `State.endQuiet`. -/
theorem quietCyclesEndAtDestination : Obligations.QuietCyclesEndAtDestination := by
  intro s hstate hleft
  have ended : exec .quietCyclesEnd s = .next s.endQuiet := congrArg _ (if_pos ⟨hstate, hleft⟩)
  refine ⟨fun hdest => ?_, fun hdest => ?_⟩
  · rw [ended]
    unfold State.endQuiet State.enterRing
    rw [hdest]
    have claim : (s.turnover.claim || (RingState.numbering == RingState.running && s.turnover.state == .waiting)) =
      s.turnover.claim := Bool.or_false _
    dsimp only
    rw [claim]
    rfl
  · have off : s.endQuiet = s.enterOff := by unfold State.endQuiet; rw [hdest]
    refine ⟨s.enterOff, ended.trans (congrArg _ off), rfl, fun q => ?_⟩
    rw [State.enterOff_port, State.stoppedNotices_heard]

end Sys2Proof.Machine
end

section
/-! SUPPORT. Nodes made STALE while the ring is RUNNING, and the ring leaving RUNNING for BROKEN or HALTED
(R83, R117, R129, R142). -/

namespace Sys2Proof.Machine

/-- The NODE_STATE of a node made STALE, at a port (R129). -/
def HostPort.toldStale (h : HostPort) (s : State) (cause : NodeCause) (p : Pos) : HostPort :=
  (h.post (.nodeState p .stale (s.node p).held (s.node p).failures cause)).raise .ringChange

@[simp] theorem HostPort.toldStale_gaps (h : HostPort) (s : State) (c : NodeCause) (p : Pos) :
    (h.toldStale s c p).gaps = h.gaps := by simp [HostPort.toldStale]
@[simp] theorem HostPort.toldStale_attached (h : HostPort) (s : State) (c : NodeCause) (p : Pos) :
    (h.toldStale s c p).attached = h.attached := by simp [HostPort.toldStale]

theorem HostPort.foldl_toldStale_gaps (l : List Pos) (s : State) (c : NodeCause) (h : HostPort) :
    (l.foldl (fun h p => h.toldStale s c p) h).gaps = h.gaps := by
  induction l generalizing h with
  | nil => rfl
  | cons p l ih => rw [List.foldl_cons, ih, toldStale_gaps]

theorem HostPort.foldl_toldStale_attached (l : List Pos) (s : State) (c : NodeCause) (h : HostPort) :
    (l.foldl (fun h p => h.toldStale s c p) h).attached = h.attached := by
  induction l generalizing h with
  | nil => rfl
  | cons p l ih => rw [List.foldl_cons, ih, toldStale_attached]

/-- The outstanding exchange belongs to one of the users named (R117). -/
theorem Control.drops_iff {c : Control} {which : User → Bool} :
    c.drops which = true ↔ ∃ x, c.exchange = some x ∧ which x.user = true := by
  unfold Control.drops
  cases c.exchange <;> simp

namespace State

/-- A READY node made STALE in RUNNING: told to every port, and no freeze claim, since a READY node does not hold
the epoch guard (R71, R129). -/
theorem changeNode_toStale {s : State} {p : Pos} (hrun : s.running = true) (hready : (s.node p).state = .ready)
    (cause : NodeCause) :
    s.changeNode p NodeEntry.toStale cause = { s with
      ports := s.ports.map fun h => h.toldStale s cause p
      nodes := { s.nodes with entries := s.nodes.entries.set p (s.node p).toStale } } := by
  have told : (s.running && (s.node p).state != (s.node p).toStale.state) = true := by
    rw [hrun, hready]; rfl
  have claim : (s.turnover.claim || (s.running && s.turnover.state == .waiting && (s.node p).guards s.turnover.epoch &&
      ((s.node p).state != (s.node p).toStale.state || (s.node p).held != (s.node p).toStale.held))) =
        s.turnover.claim := by
    simp [NodeEntry.guards, hready]
  unfold changeNode updateNode
  dsimp only
  rw [told, claim]
  rfl

/-- Several READY nodes made STALE in RUNNING, in the order of the list (R129, R142). -/
theorem changeNodes_toStale {s : State} {l : List Pos} (hrun : s.running = true) (hl : l.Nodup)
    (hready : ∀ p ∈ l, (s.node p).state = .ready) (cause : NodeCause) :
    s.changeNodes l NodeEntry.toStale cause = { s with
        ports := (s.changeNodes l NodeEntry.toStale cause).ports
        nodes := { s.nodes with entries := (s.changeNodes l NodeEntry.toStale cause).nodes.entries } } ∧
      (∀ p, (s.changeNodes l NodeEntry.toStale cause).node p =
        if p ∈ l then { s.node p with state := .stale } else s.node p) ∧
      ∀ q, (s.changeNodes l NodeEntry.toStale cause).port q =
        l.foldl (fun h p => h.toldStale s cause p) (s.port q) := by
  induction l generalizing s with
  | nil => exact ⟨rfl, fun p => by simp, fun q => rfl⟩
  | cons p l ih =>
    obtain ⟨hp, hl⟩ := List.nodup_cons.mp hl
    have changed := changeNode_toStale hrun (hready p (by simp)) cause
    rw [changeNodes_cons]
    generalize hu : s.changeNode p NodeEntry.toStale cause = u at changed
    have other (q : Pos) (hq : p ≠ q) : u.node q = s.node q := by
      rw [changed]; exact Table.get_set_ne _ _ hq
    have ne (q : Pos) (hq : q ∈ l) : p ≠ q := fun h => hp (h ▸ hq)
    obtain ⟨frame, nodes, ports⟩ := ih (s := u) (by rw [changed]; exact hrun) hl fun q hq => by
      rw [other q (ne q hq)]; exact hready q (List.mem_cons_of_mem _ hq)
    refine ⟨?_, fun q => ?_, fun q => ?_⟩
    · conv_lhs => rw [frame]
      rw [changed]
    · rw [nodes q]
      by_cases hq : p = q
      · subst hq
        rw [if_neg hp, changed]
        simp [node, NodeEntry.toStale]
      · rw [other q hq]
        simp [Ne.symm hq]
    · have told (h : HostPort) : l.foldl (fun h p => h.toldStale u cause p) h =
          l.foldl (fun h p => h.toldStale s cause p) h :=
        List.foldl_ext _ _ _ fun h q hq => by simp only [HostPort.toldStale, other q (ne q hq)]
      rw [ports q, told, List.foldl_cons]
      congr 1
      rw [changed]
      exact Table.get_map _ _ _

/-! ### The drop of the outstanding exchange (R117) -/

theorem sentWithoutAttempt_of_none {s : State} (h : s.control.exchange = none) (l : List CycleRecord) :
    s.sentWithoutAttempt l = l := by
  simp [sentWithoutAttempt, h]

theorem map_disown {s : State} (h : s.control.exchange ≠ none) (l : List CycleRecord) :
    (l.map fun r => r.disown s.control.attempt) = s.sentWithoutAttempt l := by
  unfold sentWithoutAttempt CycleRecord.disown
  refine List.map_congr_left fun r _ => ?_
  cases s.control.attempt <;> simp [h, eq_comm]

/-- No exchange left outstanding (R117). -/
def withoutExchange (s : State) : State :=
  { s with
    control :=
      { s.control with
        exchange := none, attempt := if s.control.exchange = none then s.control.attempt else none }
    ring := { s.ring with sent := s.sentWithoutAttempt s.ring.sent } }

theorem withoutExchange_of_none {s : State} (h : s.control.exchange = none) : s.withoutExchange = s := by
  unfold withoutExchange
  rw [sentWithoutAttempt_of_none h, if_pos h, ← h]

/-- The outstanding exchange dropped, when it belongs to one of the users named (R117). -/
theorem dropExchange_of_drops {s : State} {which : User → Bool} (h : s.control.drops which = true) :
    s.dropExchange which = s.withoutExchange := by
  have outstanding : s.control.exchange ≠ none := by
    intro hn; simp [Control.drops, hn] at h
  simp only [dropExchange, h, if_true, map_disown outstanding, withoutExchange, if_neg outstanding]

theorem dropExchange_of_keeps {s : State} {which : User → Bool} (h : s.control.drops which = false) :
    s.dropExchange which = s := by
  simp [dropExchange, h]

end State

end Sys2Proof.Machine
end

section
/-! SUPPORT. What the ring leaves behind when it goes from RUNNING to BROKEN (R83, R117, R142). -/

namespace Sys2Proof.Machine.State

/-- The verification round and the refresh ended (R125, R142). -/
def roundEnded (s : State) : State :=
  { s with control := { s.control with refresh := none }, nodes := { s.nodes with procedure := .idle } }

/-- Verification, refresh and exchanges ended as the ring leaves RUNNING for BROKEN or HALTED, before the turnover
is abandoned (R117, R125, R142). -/
def workEnded (s : State) : State := s.failVerification.withoutExchange.roundEnded

/-- The turnover abandoned, but for its exchange (R83). -/
def turnoverAbandoned (s : State) : State :=
  { s with
    streams := s.streams.map Entry.abandoned
    plans := { s.plans with outgoing := none }
    admission :=
      { s.admission with
        batchEmpty := false
        batchTickets := Table.tabulate fun p =>
          mergedTicket (s.admission.batchTickets.get p) (s.turnover.outTickets.get p) }
    turnover :=
      { s.turnover with
        state := .waiting, target := none, work := [], flush := false, claim := false
        outTickets := Table.fill 0 } }

theorem turnoverAbandoned_abandonedTo (s : State) : s.abandonedTo s.turnoverAbandoned := by
  refine ⟨rfl, rfl, rfl, fun id => ?_, fun q => Table.get_tabulate _ _⟩
  refine (Table.get_map _ _ _).trans ?_
  have differs : ((s.entry id).staged != (s.entry id).inForce) =
      decide ((s.entry id).staged ≠ (s.entry id).inForce) := by
    rw [Bool.eq_iff_iff]; simp
  rw [← differs]
  rfl

/-- An exchange that is outstanding in RUNNING but for a numbering (R114, R117). -/
def exchangeOfRunning (s : State) : Prop :=
  ∀ x, s.control.exchange = some x → x.user = .verification ∨ x.user = .refresh ∨
    x.user = .distribution ∧ s.turnover.inFlight = true

/-- The verification round failing changes nodes and ports alone (R142). -/
theorem failVerification_frame {s : State} (hrun : s.running = true) (hl : s.nodes.procedure.left.Nodup) :
    s.failVerification = { s with
        ports := s.failVerification.ports
        nodes := { s.nodes with entries := s.failVerification.nodes.entries } } ∧
      (∀ p, s.failVerification.node p =
        if p ∈ s.nodes.procedure.left.filter fun p => (s.node p).state == .ready then
          { s.node p with state := .stale }
        else s.node p) ∧
      ∀ q, s.failVerification.port q =
        (s.nodes.procedure.left.filter fun p => (s.node p).state == .ready).foldl
          (fun h p => h.toldStale s .verification p) (s.port q) :=
  changeNodes_toStale hrun (hl.filter _) (fun p hp => by simpa using (List.mem_filter.mp hp).2) _

/-- An abandon, once it is known what is left of the exchange (R83, R117). -/
theorem abandon_of_dropped {s e : State} (hdrop : s.dropExchange (· == .distribution) = e)
    (hidle : s.turnover.inFlight = false → s = e) :
    s.abandon = if s.turnover.inFlight then e.turnoverAbandoned else e := by
  cases h : s.turnover.inFlight with
  | true => rw [abandon, h, if_pos rfl, if_pos rfl, ← hdrop]; rfl
  | false => rw [abandon_of_not_inFlight h, hidle h, if_neg Bool.false_ne_true]

/-- The exchange dropped by its user, with the rounds and the turnover (R83, R117). -/
theorem abandon_roundEnded {s : State} (hx : s.exchangeOfRunning) :
    (s.dropExchange fun u => u == .verification || u == .refresh).roundEnded.abandon =
      if s.turnover.inFlight then s.withoutExchange.roundEnded.turnoverAbandoned
      else s.withoutExchange.roundEnded := by
  cases hround : s.control.drops fun u => u == .verification || u == .refresh with
  | true =>
    rw [dropExchange_of_drops hround]
    exact abandon_of_dropped (dropExchange_of_keeps rfl) fun _ => rfl
  | false =>
    rw [dropExchange_of_keeps hround]
    cases hdist : s.control.drops (· == .distribution) with
    | true =>
      obtain ⟨x, hex, huser⟩ := Control.drops_iff.mp hdist
      refine abandon_of_dropped (dropExchange_of_drops hdist) fun hidle => ?_
      obtain h | h | ⟨-, h⟩ := hx x hex
      · simp [h] at huser
      · simp [h] at huser
      · exact absurd h (Bool.eq_false_iff.mp hidle)
    | false =>
      have clear : s.control.exchange = none := by
        refine Option.eq_none_iff_forall_ne_some.mpr fun x hex => ?_
        obtain h | h | ⟨h, -⟩ := hx x hex
        · exact Bool.eq_false_iff.mp hround (Control.drops_iff.mpr ⟨x, hex, by simp [h]⟩)
        · exact Bool.eq_false_iff.mp hround (Control.drops_iff.mpr ⟨x, hex, by simp [h]⟩)
        · exact Bool.eq_false_iff.mp hdist (Control.drops_iff.mpr ⟨x, hex, by simp [h]⟩)
      rw [withoutExchange_of_none clear]
      exact abandon_of_dropped (dropExchange_of_keeps hdist) fun _ => rfl

/-- The ring leaves RUNNING for BROKEN or HALTED (R83, R117, R125, R142). -/
theorem leaveRunning_failing {s : State} (hrun : s.running = true) (hl : s.nodes.procedure.left.Nodup)
    (hx : s.exchangeOfRunning) :
    s.leaveRunning true = if s.turnover.inFlight then s.workEnded.turnoverAbandoned else s.workEnded := by
  obtain ⟨frame, -, -⟩ := failVerification_frame hrun hl
  have flight : s.failVerification.turnover.inFlight = s.turnover.inFlight := by rw [frame]
  have ended := abandon_roundEnded (s := s.failVerification) (by rw [frame]; exact hx)
  rw [flight] at ended
  rw [leaveRunning, if_pos hrun]
  exact ended

end Sys2Proof.Machine.State
end

section
/-! SUPPORT. The gaps that a missed return leaves (R152, R155), and the plans kept for the cycles still awaited
(R151). -/

namespace Sys2Proof.Machine

/-! ### Gap counters -/

/-- Counters raised once each for the streams of a list. -/
theorem get_foldl_raiseGap {l : List StreamId} (hl : l.Nodup) (t : Table Nat 48) (id : StreamId) :
    (l.foldl (fun t id => t.modify id raiseGap) t).get id = if id ∈ l then min 255 (t.get id + 1) else t.get id := by
  induction l generalizing t with
  | nil => rfl
  | cons i l ih =>
    obtain ⟨hi, hl⟩ := List.nodup_cons.mp hl
    rw [List.foldl_cons, ih hl, Table.get_modify]
    by_cases h : i = id
    · subst h; simp [hi, raiseGap]
    · simp [h, Ne.symm h]

/-- What a missed return gives a port: a gap of each stream it is to hear, while it is ATTACHED (R155). -/
theorem HostPort.foldl_receive_miss (r : CycleRecord) (o : Option (Fin 17)) (l : List Placement) (h : HostPort) :
    l.foldl (fun h pl => h.receive r (.miss o) pl) h = { h with
      gaps := if h.attached then (l.map (·.stream)).foldl (fun t id => t.modify id raiseGap) h.gaps
        else h.gaps } := by
  induction l generalizing h with
  | nil => simp
  | cons pl l ih =>
    rw [List.foldl_cons, ih]
    cases ha : h.attached with
    | false => simp [receive, ha]
    | true =>
      have counted : h.receive r (.miss o) pl = h.countGap pl.stream := by simp [receive, ha, recordOf]
      have still : (h.countGap pl.stream).attached = true := ha
      rw [counted, still]
      rfl

/-- The streams of a page that list a port, in the order of their placements (R152). -/
theorem deliveriesOf_heard {plan : Plan} {t : DeliveryTable} (h : ∀ id, (listedPorts t id).Nodup) (c : CycleCount)
    (q : Port) :
    (((deliveriesOf plan t c).filter fun x => x.1 == q).map Prod.snd).map (·.stream) =
      ((plan.layouts.get (pageOf c)).map (·.stream)).filter fun id => decide (q ∈ listedPorts t id) := by
  have one (pl : Placement) :
      ((((listedPorts t pl.stream).map fun p => (p, pl)).filter fun x => x.1 == q).map Prod.snd).map (·.stream) =
        if q ∈ listedPorts t pl.stream then [pl.stream] else [] := by
    have own : (listedPorts t pl.stream).filter (· == q) = if q ∈ listedPorts t pl.stream then [q] else [] := by
      rw [List.filter_beq, (h _).count]
      split <;> rfl
    rw [List.filter_map, List.map_map, List.map_map]
    refine (congrArg (List.map _) own).trans ?_
    split <;> rfl
  unfold deliveriesOf
  induction plan.layouts.get (pageOf c) with
  | nil => rfl
  | cons pl l ih =>
    rw [List.flatMap_cons, List.filter_append, List.map_append, List.map_append, one, ih, List.map_cons, List.filter_cons]
    split <;> simp [*]

namespace State

/-- A missed return reaches the gap counters alone (R152, R155). -/
theorem extract_miss (s : State) (r : CycleRecord) (o : Option (Fin 17)) :
    s.extract r (.miss o) [] = { s with ports := (s.extract r (.miss o) []).ports } ∧
      (∀ q, (s.extract r (.miss o) []).port q =
        { s.port q with gaps := ((s.extract r (.miss o) []).port q).gaps }) ∧
      s.leavesGaps (s.extract r (.miss o) []) r := by
  unfold leavesGaps
  cases hplan : s.planFor r.epoch with
  | none =>
    have same : s.extract r (.miss o) [] = s := by rw [extract, hplan]
    rw [same]
    exact ⟨rfl, fun _ => rfl, fun _ _ => rfl, fun _ _ h => by cases h⟩
  | some x =>
    obtain ⟨plan, lines⟩ := x
    have handled : s.extract r (.miss o) [] = { s with
        ports := (deliveriesOf plan lines r.count).foldl
          (fun ps x => ps.modify x.1 fun h => h.receive r (.miss o) x.2) s.ports } := by
      rw [extract, hplan]; exact handle_nil _ _ _ _
    have port (q : Port) := by
      have cell : (s.extract r (.miss o) []).port q =
          (((deliveriesOf plan lines r.count).filter fun x => x.1 == q).map Prod.snd).foldl
            (fun h pl => h.receive r (.miss o) pl) (s.port q) := by
        rw [handled]
        exact Table.get_foldl_modify (fun (pl : Placement) (h : HostPort) => h.receive r (.miss o) pl) _ s.ports q
      exact cell.trans (HostPort.foldl_receive_miss r o _ _)
    refine ⟨by rw [handled], fun q => by rw [port q], nofun, fun plan' lines' h hpage hlisted q id => ?_⟩
    cases h
    rw [port q, deliveriesOf_heard hlisted]
    show (if (s.port q).attached = true then _ else (s.port q).gaps).get id = _
    cases (s.port q).attached with
    | false => simp
    | true =>
      rw [if_pos rfl, get_foldl_raiseGap (hpage.filter _)]
      refine if_congr ?_ rfl rfl
      rw [List.mem_filter, decide_eq_true_iff]
      exact ⟨fun ⟨placed, listed⟩ => ⟨rfl, listed, placed⟩, fun ⟨_, listed, placed⟩ => ⟨placed, listed⟩⟩

/-- The retired plan is kept while a cycle of its epoch is awaited (R34, R151). -/
theorem discardRetired_retires {s : State} {l : List CycleRecord}
    (hl : s.ring.sent.map (·.epoch) = l.map (·.epoch)) : s.retiresAfter s.discardRetired l := by
  have awaits (e : Epoch) : s.ring.awaits e = true ↔ ∃ r ∈ l, r.epoch = e := by
    have mem : e ∈ s.ring.sent.map (·.epoch) ↔ e ∈ l.map (·.epoch) := by rw [hl]
    simpa [Ring.awaits] using mem
  unfold discardRetired
  refine ⟨fun plan hplan kept => ?_, fun gone => ?_⟩
  · simp [hplan, (awaits _).mpr kept]
  · cases hplan : s.plans.retired with
    | none => simp
    | some plan =>
      have unkept : s.ring.awaits plan.epoch = false := by
        rw [Bool.eq_false_iff, ne_eq, awaits]
        rintro ⟨r, hr, he⟩
        exact gone plan hplan r hr he
      simp [unkept]

end State

end Sys2Proof.Machine
end

section
/-! SUPPORT. The miss that reaches the limit (R98). -/

namespace Sys2Proof.Machine

namespace State

/-- The ring leaving RUNNING for BROKEN or HALTED, field by field (R83, R117, R125, R142). -/
theorem leaveRunning_frame {s : State} (hrun : s.running = true) (hl : s.nodes.procedure.left.Nodup)
    (hx : s.exchangeOfRunning) :
    s.leaveRunning true = { s with
        ports := s.failVerification.ports
        streams := (s.leaveRunning true).streams, turnover := (s.leaveRunning true).turnover
        ring := { s.ring with sent := s.sentWithoutAttempt s.ring.sent }
        nodes := { s.nodes with entries := s.failVerification.nodes.entries, procedure := .idle }
        plans := { s.plans with outgoing := (s.leaveRunning true).plans.outgoing }
        admission :=
          { s.admission with
            batchEmpty := (s.leaveRunning true).admission.batchEmpty
            batchTickets := (s.leaveRunning true).admission.batchTickets }
        control :=
          { s.control with
            exchange := none, refresh := none
            attempt := if s.control.exchange = none then s.control.attempt else none } } ∧
      (s.turnover.inFlight = true → s.abandonedTo (s.leaveRunning true)) ∧
      (s.turnover.inFlight = false → (s.leaveRunning true).streams = s.streams ∧
        (s.leaveRunning true).turnover = s.turnover ∧ (s.leaveRunning true).admission = s.admission ∧
        (s.leaveRunning true).plans.outgoing = s.plans.outgoing) := by
  obtain ⟨frame, -, -⟩ := failVerification_frame hrun hl
  rw [leaveRunning_failing hrun hl hx]
  unfold workEnded
  generalize s.failVerification = u at frame
  rw [frame]
  cases s.turnover.inFlight with
  | true => exact ⟨rfl, fun _ => turnoverAbandoned_abandonedTo _, nofun⟩
  | false => exact ⟨rfl, nofun, fun _ => ⟨rfl, rfl, rfl, rfl⟩⟩

/-- A turnover that is not in flight, or is abandoned, has no work to go on to (R78, R83). -/
theorem advanceWork_of_not_inFlight {s : State} (h : s.turnover.inFlight = false) : s.advanceWork = s := by
  have idle : s.turnover.state ≠ .distributing := by
    intro hd; simp [Turnover.inFlight, hd] at h
  simp [advanceWork, Turnover.advance, idle]

/-- The entry into BROKEN (R102, R105). -/
theorem enterRing_broken (s : State) (reason : RingReason) :
    s.enterRing .broken reason = { s with
      ring := { s.ring with state := .broken, heal := 0, healOdd := false }
      ports := s.ports.map fun h => (h.post (.ringState .broken s.ring.breakPos reason)).raise .ringDown } := by
  have claim : (s.turnover.claim || (RingState.broken == RingState.running && s.turnover.state == .waiting)) =
    s.turnover.claim := Bool.or_false _
  unfold enterRing
  dsimp only
  rw [claim]
  rfl

theorem channel_of_no_exchange {s : State} (h : s.control.exchange = none) (r : CycleRecord) (cls : ReturnClass)
    (d : Nat) : s.channel r cls d = s := by
  simp [channel, h]

/-- A command that has the oldest awaited cycle missed evaluates its return as a miss (R96). -/
theorem exec_missed {s : State} {r : CycleRecord} {rest : List CycleRecord} {c : Instr} {origin : Option (Fin 17)}
    (hsent : s.ring.sent = r :: rest) (hc : missedBy c origin) :
    ∃ d, exec c s = .next (s.evaluate r (.miss origin) d []) := by
  rcases hc with ⟨rfl, rfl⟩ | ⟨beacon, p, o, hgood, hbeacon, hnum, ho, rfl, hcmd⟩
  · refine ⟨0, ?_⟩
    show execReturnWindowExpiry s = _
    rw [execReturnWindowExpiry, hsent]
  · have good : goodBeacon beacon = true := goodBeacon_iff.mpr ⟨hgood, hbeacon⟩
    have origin : beaconOrigin beacon = o := by
      unfold beaconOrigin
      rw [hnum, posOf_posNum]
      exact Fin.ext ho.symm
    rcases hcmd with rfl | ⟨cell, rfl⟩
    · refine ⟨0, ?_⟩
      show execBeaconReceived beacon s = _
      rw [execBeaconReceived, hsent]
      simp [good, origin]
    · refine ⟨cell - r.start, ?_⟩
      show execReturnEvaluation cell _ s = _
      have unmoved : s.follow r beacon (cell - r.start) = s := by simp [follow, hopOf, hbeacon]
      rw [execReturnEvaluation, hsent]
      simp [Ring.takes_beacon good, unmoved, classify, good, origin]


/-- The miss counted in RUNNING, before the ring goes to BROKEN (R96, R98). -/
def missCounted (s : State) (r : CycleRecord) (rest : List CycleRecord) (origin : Option (Fin 17)) : State :=
  { s with
    ring :=
      { s.ring with
        sent := rest, misses := s.ring.misses + 1
        breakPos := origin.getD (if s.ring.breakPos = 0 then 16 else s.ring.breakPos)
        beaconed := if origin = none then s.ring.beaconed else r.count :: s.ring.beaconed } }

/-- The ring broken by the miss that reaches the limit, before the Slot Mover's part of the return (R98). -/
def missBroken (s : State) (r : CycleRecord) (rest : List CycleRecord) (origin : Option (Fin 17)) : State :=
  ((s.missCounted r rest origin).leaveRunning true).enterRing .broken .misses

/-- The miss that reaches the limit in RUNNING (R97, R98; log 16). -/
theorem evaluate_miss_limit {s : State} {r : CycleRecord} {rest : List CycleRecord} (origin : Option (Fin 17))
    (hrun : s.ring.state = .running) (hsent : s.ring.sent = r :: rest)
    (hlimit : s.ring.missLimit ≤ s.ring.misses + 1) (hl : s.nodes.procedure.left.Nodup) (hx : s.exchangeOfRunning)
    (d : Nat) :
    s.evaluate r (.miss origin) d [] =
      (((s.missBroken r rest origin).extract r (.miss origin) []).discardRetired).advanceWork := by
  have engine : ({ s with ring := { s.ring with
      sent := s.ring.sent.tail, beaconed := s.ring.beaconedAfter r (.miss origin) } } : State).engine r (.miss origin) =
        s.missBroken r rest origin := by
    unfold State.engine missInRunning missBroken missCounted
    cases origin <;> simp [hrun, hsent, hlimit, Ring.markBreak]
  have quiet : (s.missBroken r rest origin).control.exchange = none := by
    have running : (s.missCounted r rest origin).running = true := by simp [running, missCounted, hrun]
    obtain ⟨frame, -, -⟩ := leaveRunning_frame running hl hx
    rw [missBroken, enterRing_broken, frame]
  rw [evaluate]
  dsimp only
  rw [engine, channel_of_no_exchange quiet]

/-- The broken ring, field by field: the views and nodes as an abandon and a failed verification leave them
(R83, R98, R102, R105, R142). -/
theorem missBroken_frame {s : State} (r : CycleRecord) (rest : List CycleRecord) (origin : Option (Fin 17))
    (hrun : s.ring.state = .running) (hl : s.nodes.procedure.left.Nodup) (hx : s.exchangeOfRunning) :
    s.missBroken r rest origin = { s with
        ports := (s.missBroken r rest origin).ports
        streams := (s.missBroken r rest origin).streams, turnover := (s.missBroken r rest origin).turnover
        ring :=
          { (s.missCounted r rest origin).ring with
            state := .broken, sent := s.sentWithoutAttempt rest, heal := 0, healOdd := false }
        nodes := { s.nodes with entries := (s.missBroken r rest origin).nodes.entries, procedure := .idle }
        plans := { s.plans with outgoing := (s.missBroken r rest origin).plans.outgoing }
        admission :=
          { s.admission with
            batchEmpty := (s.missBroken r rest origin).admission.batchEmpty
            batchTickets := (s.missBroken r rest origin).admission.batchTickets }
        control :=
          { s.control with
            exchange := none, refresh := none
            attempt := if s.control.exchange = none then s.control.attempt else none } } ∧
      (s.turnover.inFlight = true → s.abandonedTo (s.missBroken r rest origin)) ∧
      (s.turnover.inFlight = false → (s.missBroken r rest origin).streams = s.streams ∧
        (s.missBroken r rest origin).turnover = s.turnover ∧
        (s.missBroken r rest origin).admission = s.admission ∧
        (s.missBroken r rest origin).plans.outgoing = s.plans.outgoing) ∧
      (s.missBroken r rest origin).turnover.inFlight = false ∧
      let failing := s.nodes.procedure.left.filter fun p => (s.node p).state == .ready
      (∀ p, (s.missBroken r rest origin).node p =
        if p ∈ failing then { s.node p with state := .stale } else s.node p) ∧
      ∀ q, (s.missBroken r rest origin).port q =
        ((failing.foldl (fun h p => h.toldStale s .verification p) (s.port q)).post
          (.ringState .broken (s.missCounted r rest origin).ring.breakPos .misses)).raise .ringDown := by
  have running : (s.missCounted r rest origin).running = true := by simp [running, missCounted, hrun]
  obtain ⟨frame, abandoned, kept⟩ := leaveRunning_frame (s := s.missCounted r rest origin) running hl hx
  obtain ⟨-, nodes, ports⟩ := failVerification_frame (s := s.missCounted r rest origin) running hl
  unfold missBroken
  rw [enterRing_broken]
  have idle : ((s.missCounted r rest origin).leaveRunning true).turnover.inFlight = false := by
    cases h : s.turnover.inFlight with
    | true =>
      obtain ⟨turnover, -⟩ := abandoned h
      rw [turnover]; rfl
    | false =>
      obtain ⟨-, turnover, -⟩ := kept h
      rw [turnover]; exact h
  generalize (s.missCounted r rest origin).leaveRunning true = w at *
  refine ⟨by rw [frame]; rfl, abandoned, kept, idle, fun p => ?_, fun q => ?_⟩
  · rw [frame]
    exact nodes p
  · rw [frame]
    exact (Table.get_map _ _ _).trans (congrArg (fun h : HostPort =>
      (h.post (.ringState .broken (s.missCounted r rest origin).ring.breakPos .misses)).raise .ringDown) (ports q))

/-- The gaps of a miss depend on the plans, and on the ports' sessions and counters, alone (R152, R155). -/
theorem leavesGaps_congr {s u t v : State} {r : CycleRecord} (hplan : u.planFor r.epoch = s.planFor r.epoch)
    (hport : ∀ q, (u.port q).gaps = (s.port q).gaps ∧ (u.port q).attached = (s.port q).attached)
    (ht : ∀ q, (v.port q).gaps = (t.port q).gaps) (h : u.leavesGaps v r) : s.leavesGaps t r := by
  unfold leavesGaps at h ⊢
  simp only [hplan, ht, fun q => (hport q).1, fun q => (hport q).2] at h
  exact h

end State

/-- Settles O48: the miss counted, the ring broken, and then the Slot Mover's part of the return. -/
theorem missLimitBreaksRing : Obligations.MissLimitBreaksRing := by
  intro s r rest c origin hrun hsent hlimit hc hx hl brk
  obtain ⟨d, hexec⟩ := State.exec_missed hsent hc
  refine ⟨_, hexec, ?_⟩
  rw [State.evaluate_miss_limit origin hrun hsent hlimit hl hx]
  obtain ⟨frame, abandoned, kept, idle, nodes, ports⟩ := State.missBroken_frame r rest origin hrun hl hx
  obtain ⟨extracted, gapsAlone, gaps⟩ := (s.missBroken r rest origin).extract_miss r origin
  generalize (s.missBroken r rest origin).extract r (.miss origin) [] = e at *
  generalize s.missBroken r rest origin = v at *
  have retires := State.discardRetired_retires (s := e) (l := rest) (by
    rw [extracted, frame]
    simp only [State.sentWithoutAttempt, List.map_map]
    refine List.map_congr_left fun x _ => ?_
    simp only [Function.comp_apply]
    split <;> rfl)
  rw [State.advanceWork_of_not_inFlight (by rw [State.discardRetired_turnover, extracted]; exact idle)]
  refine ⟨State.leavesGaps_congr ?_ (fun q => ?_) (fun _ => rfl) gaps, ?_, ?_, ?_, ?_, ?_, ?_⟩
  · rw [frame]; rfl
  · rw [ports q]
    simp [HostPort.foldl_toldStale_gaps, HostPort.foldl_toldStale_attached]
  · unfold State.discardRetired
    rw [extracted, frame]
    rfl
  · intro h
    rw [extracted]
    exact abandoned h
  · intro h
    rw [extracted]
    exact kept h
  · rw [extracted, frame] at retires ⊢
    exact retires
  · intro p
    rw [← nodes p, extracted]
    rfl
  · intro q
    refine (gapsAlone q).trans ?_
    rw [ports q]
    rfl

end Sys2Proof.Machine
end

section
/-! SUPPORT. What a hub cycle carries: its octets read back, and the control field by the order of users (R89, R112,
R122, R123). -/

namespace Sys2Proof.Machine

/-! ### The octets of a cycle -/

theorem Message.octets_length (m : Message) (sequence : Byte) : (m.octets sequence).length = 16 := by
  cases m <;> simp [Message.octets, Message.body, padTo, zeros]

section cycle
variable (beacon turnover : Bool) (e : Epoch) (count : CycleCount) (hop origin : Byte) (payload : List Byte)

theorem epochOf_cycleOctets (control : List Byte) :
    epochOf (cycleOctets beacon turnover e count hop origin control payload) = e := by
  show (kindEpoch beacon turnover e).extractLsb' 0 4 = e
  revert beacon turnover e; decide

theorem turnoverOf_cycleOctets (control : List Byte) :
    turnoverOf (cycleOctets beacon turnover e count hop origin control payload) = turnover := by
  show (kindEpoch beacon turnover e).getLsbD 6 = turnover
  revert beacon turnover e; decide

theorem countOf_cycleOctets (control : List Byte) :
    countOf (cycleOctets beacon turnover e count hop origin control payload) = count :=
  (BitVec.extractLsb'_append_extractLsb'_eq_extractLsb' (x := count) (start₁ := 0) (len₁ := 8) (start₂ := 8)
    (len₂ := 8) rfl).trans BitVec.extractLsb'_eq_self

theorem controlOf_cycleOctets {control : List Byte} (h : control.length = 16) :
    controlOf (cycleOctets beacon turnover e count hop origin control payload) = control := by
  show (control ++ _ ++ _ ++ _ ++ _).take 16 = control
  simp only [List.append_assoc]
  exact List.take_left' h

end cycle

/-! ### The control field of a cycle -/

namespace State

theorem nextUser_of_procedure {s : State} {u : User} {m : Message} (h : s.nodes.procedure.message s.turnover.epoch =
    some (u, m)) (c : CycleCount) : s.nextUser c = some (u, m, s.control.refresh) := by
  simp [nextUser, h]

theorem nextUser_of_distribution {s : State} {u : User} {m : Message}
    (hp : s.nodes.procedure.message s.turnover.epoch = none) (h : s.distribution = some (u, m)) (c : CycleCount) :
    s.nextUser c = some (u, m, s.control.refresh) := by
  simp [nextUser, hp, h]

theorem nextUser_of_refresh {s : State} (hp : s.nodes.procedure.message s.turnover.epoch = none)
    (hd : s.distribution = none) (c : CycleCount) :
    s.nextUser c = (s.refreshFor c).map fun r => (.refresh, refreshMessage s.plans.inForce r, some r) := by
  simp [nextUser, hp, hd]

/-- The work item whose message distribution sends: the first OPEN one (R75). -/
def distributes (s : State) (w : WorkItem) (plan : Plan) : Prop :=
  s.turnover.state = .distributing ∧ s.plans.outgoing = some plan ∧
    ∃ l l', s.turnover.work = l ++ w :: l' ∧ w.outcome = .opened ∧ ∀ v ∈ l, v.outcome ≠ .opened

theorem firstOpen_eq_some {l : List WorkItem} {w : WorkItem} :
    firstOpen l = some w ↔ ∃ a b, l = a ++ w :: b ∧ w.outcome = .opened ∧ ∀ v ∈ a, v.outcome ≠ .opened := by
  unfold firstOpen
  rw [List.find?_eq_some_iff_append]
  simp only [beq_iff_eq, Bool.not_eq_true', beq_eq_false_iff_ne]
  exact ⟨fun ⟨hw, a, b, e, ha⟩ => ⟨a, b, e, hw, ha⟩, fun ⟨a, b, e, hw, ha⟩ => ⟨hw, a, b, e, ha⟩⟩

theorem distribution_of_distributes {s : State} {w : WorkItem} {plan : Plan} (h : s.distributes w plan) :
    s.distribution = some (.distribution, workMessage plan w) := by
  obtain ⟨hstate, hplan, hw⟩ := h
  rw [distribution, hstate, firstOpen_eq_some.mpr hw, hplan]

theorem distribution_of_none {s : State} (h : ∀ w plan, ¬ s.distributes w plan) : s.distribution = none := by
  unfold distribution
  split
  · next w plan hstate hw hplan => exact absurd ⟨hstate, hplan, firstOpen_eq_some.mp hw⟩ (h w plan)
  · rfl

/-- A STALE node whose tap list in force its capacity can hold (R123). -/
def refreshFits (s : State) (p : Pos) : Prop :=
  (s.node p).state = .stale ∧ ∃ i, (s.node p).identity = some i ∧
    (s.plans.inForce.taps.get p).length ≤ i.capacity

theorem refreshable_eq_some {s : State} {p : Pos} :
    s.refreshable = some p ↔ s.refreshFits p ∧ ∀ q, q < p → ¬ s.refreshFits q := by
  refine find?_finRange_eq_some.trans (and_congr ?_ (forall₂_congr fun q _ => ?_))
  · unfold refreshFits
    cases (s.node p).identity <;> simp
  · unfold refreshFits
    cases (s.node q).identity <;> simp

theorem refreshable_of_none {s : State} (h : ∀ p, ¬ s.refreshFits p) : s.refreshable = none :=
  Option.eq_none_iff_forall_ne_some.mpr fun p hp => h p (refreshable_eq_some.mp hp).1

theorem refreshFor_of_tick {s : State} {c : CycleCount} (hr : s.control.refresh = none) (hc : c.toNat % 64 = 0)
    (hrun : s.ring.state = .running) (hidle : s.turnover.inFlight = false) :
    s.refreshFor c = s.refreshable.map s.plans.inForce.refreshOf := by
  simp [refreshFor, hr, hc, running, hrun, hidle]

theorem refreshFor_of_no_tick {s : State} {c : CycleCount} (hr : s.control.refresh = none)
    (h : c.toNat % 64 ≠ 0 ∨ s.ring.state ≠ .running ∨ s.turnover.inFlight = true ∨ ∀ p, ¬ s.refreshFits p) :
    s.refreshFor c = none := by
  unfold refreshFor
  rw [hr]
  dsimp only
  split
  · next tick =>
    obtain ⟨hc, hrun, hidle⟩ := tick
    obtain h | h | h | h := h
    · exact absurd hc h
    · exact absurd (by simpa [running] using hrun) h
    · rw [h] at hidle; cases hidle
    · rw [refreshable_of_none h]; rfl
  · rfl

end State

/-- The number of parts of a tap list, three to a part (R75, R123). -/
theorem partCount_eq {l : List Tap} {n : Nat} (one : 1 ≤ n) (all : l.length ≤ 3 * n)
    (least : n = 1 ∨ 3 * n < l.length + 3) : partCount l = n := by
  unfold partCount; omega

namespace State

section controlFor
variable {s : State} {c : CycleCount}

theorem controlFor_quieting (h : s.ring.state = .quieting) :
    s.controlFor c = { field := fieldQuiet, awaits := false, control := s.control } := by
  simp [controlFor, h]

theorem controlFor_outstanding (h : s.ring.state ≠ .quieting) (ha : s.control.attempt ≠ none) :
    s.controlFor c = { field := fieldNone, awaits := false, control := s.control } := by
  obtain ⟨a, ha⟩ := Option.ne_none_iff_exists'.mp ha
  simp [controlFor, h, ha]

theorem controlFor_again (h : s.ring.state ≠ .quieting) (ha : s.control.attempt = none) {x : Exchange}
    (hx : s.control.exchange = some x) : s.controlFor c = s.control.place x s.control.refresh c := by
  simp [controlFor, h, ha, hx]

theorem controlFor_begins (h : s.ring.state ≠ .quieting) (ha : s.control.attempt = none)
    (hx : s.control.exchange = none) {u : User} {m : Message} {r : Option Refresh}
    (hu : s.nextUser c = some (u, m, r)) : s.controlFor c =
      s.control.place { user := u, message := m, failed := 0, limit := s.ring.retryLimit } r c := by
  simp [controlFor, h, ha, hx, hu]

theorem controlFor_idle (h : s.ring.state ≠ .quieting) (ha : s.control.attempt = none)
    (hx : s.control.exchange = none) (hu : s.nextUser c = none) :
    s.controlFor c = { field := fieldNone, awaits := false, control := s.control } := by
  simp [controlFor, h, ha, hx, hu]

end controlFor

/-- The control field of a cycle is 16 octets long (R190). -/
theorem controlFor_field_length (s : State) (c : CycleCount) : (s.controlFor c).field.length = 16 := by
  by_cases hq : s.ring.state = .quieting
  · rw [controlFor_quieting hq]; rfl
  · by_cases ha : s.control.attempt = none
    · cases hx : s.control.exchange with
      | some x => rw [controlFor_again hq ha hx]; exact Message.octets_length _ _
      | none =>
        cases hu : s.nextUser c with
        | none => rw [controlFor_idle hq ha hx hu]; rfl
        | some y => rw [controlFor_begins hq ha hx hu]; exact Message.octets_length _ _
    · rw [controlFor_outstanding hq ha]; rfl

/-- A cycle that carries the control field of a state composes as R112, R122 and R123 have it. -/
theorem controlFor_composes {s : State} {octets : List Byte}
    (hf : controlOf octets = (s.controlFor s.ring.nextCount).field) :
    s.composes octets (s.controlFor s.ring.nextCount).awaits (s.controlFor s.ring.nextCount).control := by
  have silent {field : List Byte} (e : s.controlFor s.ring.nextCount =
      { field := field, awaits := false, control := s.control }) :
      (s.controlFor s.ring.nextCount).awaits = false ∧ controlOf octets = field ∧
        (s.controlFor s.ring.nextCount).control = s.control := by
    rw [hf, e]; exact ⟨rfl, rfl, rfl⟩
  have sends {x : Exchange} {r : Option Refresh} (e : s.controlFor s.ring.nextCount =
      s.control.place x r s.ring.nextCount) :
      (s.controlFor s.ring.nextCount).awaits = true ∧
        controlOf octets = x.message.octets s.control.sequence ∧
        (s.controlFor s.ring.nextCount).control =
          { exchange := some x, attempt := some { sequence := s.control.sequence, count := s.ring.nextCount }
            sequence := s.control.sequence + 1, refresh := r } := by
    rw [hf, e]; exact ⟨rfl, rfl, rfl⟩
  refine ⟨fun hq => silent (controlFor_quieting hq), fun hq => ⟨fun ha => silent (controlFor_outstanding hq ha),
    fun ha => ⟨fun x hx => sends (controlFor_again hq ha hx), fun hx => ?_⟩⟩⟩
  have begins {u : User} {m : Message} {r : Option Refresh} (hu : s.nextUser s.ring.nextCount = some (u, m, r)) :=
    sends (controlFor_begins hq ha hx hu)
  have idles (hu : s.nextUser s.ring.nextCount = none) := silent (controlFor_idle hq ha hx hu)
  refine ⟨fun k h => begins (nextUser_of_procedure (by rw [h]; rfl) _),
    fun p h => begins (nextUser_of_procedure (by rw [h]; rfl) _),
    fun p l h => begins (nextUser_of_procedure (by rw [h]; rfl) _), fun hproc => ?_⟩
  have unclaimed : s.nodes.procedure.message s.turnover.epoch = none := by
    obtain h | h | h := hproc <;> (rw [h]; rfl)
  refine ⟨fun w plan hw => ?_, fun hnone => ?_⟩
  · have next := nextUser_of_distribution unclaimed (distribution_of_distributes hw) s.ring.nextCount
    exact ⟨fun hmark => begins (next.trans (by simp [workMessage, hmark, partTaps])),
      fun hmark => begins (next.trans (by simp [workMessage, hmark]))⟩
  · have next := nextUser_of_refresh unclaimed (distribution_of_none hnone) s.ring.nextCount
    refine ⟨fun f hf hopen => begins ?_, fun f hf hended => idles ?_,
      fun p n hr hc hrun hidle hp hlow one all least => begins ?_, fun hr hno => idles ?_⟩
    · rw [next]; simp [refreshFor, hf, hopen]; rfl
    · rw [next]; simp [refreshFor, hf, hended]
    · rw [next, refreshFor_of_tick hr hc hrun hidle, refreshable_eq_some.mpr ⟨hp, hlow⟩]
      simp only [Option.map_some, Plan.refreshOf, partCount_eq one all least]
      rfl
    · rw [next, refreshFor_of_no_tick hr hno]; rfl

end State

/-- The control field that a hub cycle carries is the one composed for it (R89, R112). -/
theorem State.controlOf_hubOctets (s : State) (c : CycleCount) :
    controlOf (s.hubOctets c) = (s.controlFor c).field :=
  controlOf_cycleOctets _ _ _ _ _ _ _ (s.controlFor_field_length c)

end Sys2Proof.Machine
end

section
/-! SUPPORT. The switch: its nodes, its notices, and the Slot Mover after it (R81, R82, R147, R148, R155). -/

namespace Sys2Proof.Machine

/-- No work item of a position is ACKNOWLEDGED (R81). -/
theorem acknowledged_eq_false {work : List WorkItem} {p : Pos} :
    acknowledged work p = false ↔ ∀ w ∈ work, w.position = p → w.outcome ≠ .acknowledged := by
  simp [acknowledged]

theorem mem_receiversOf {v : Option Descriptor} {q : Port} :
    q ∈ receiversOf v ↔ ∃ d p, v = some d ∧ d.source = .node p ∧
      (d.owner = q ∧ d.ownerReceives = true ∨ q ∈ d.subscribers) := by
  cases v with
  | none => simp [receiversOf]
  | some d =>
    cases hs : d.source with
    | host => simp [receiversOf, Descriptor.receivers, hs]
    | node p => simp [receiversOf, Descriptor.receivers, hs, and_comm, @eq_comm _ q]

theorem settledNotices_heard (tickets : Table Ticket 4) (e : Epoch) (q : Port) :
    ((settledNotices tickets e).filter fun x => x.1 == q).map Prod.snd =
      if tickets.get q = 0 then [] else [.settled (tickets.get q) e] := by
  unfold settledNotices
  rw [filter_allPorts_notices]
  by_cases h : tickets.get q = 0 <;> simp [h]

/-- The cycle's page is page 0 at a multiple of 8 (R4, R80). -/
theorem pageOf_of_multiple {c : CycleCount} (h : c.toNat % 8 = 0) : pageOf c = 0 := Fin.ext h

namespace State

/-! ### The nodes of a switch -/

/-- The Node Table with the epoch held by the acknowledged nodes (R81). -/
def withAcks (s : State) (epoch : Epoch) : State :=
  { s with
    nodes :=
      { s.nodes with
        entries := Table.tabulate fun p =>
          if acknowledged s.turnover.work p then { s.node p with held := some epoch } else s.node p } }

/-- The nodes that a switch makes STALE: READY, and acknowledged nothing (R81). -/
def unacknowledged (s : State) : List Pos :=
  allPositions.filter fun p => s.ready p && !acknowledged s.turnover.work p

theorem withAcks_node (s : State) (epoch : Epoch) (p : Pos) : (s.withAcks epoch).node p =
    if acknowledged s.turnover.work p then { s.node p with held := some epoch } else s.node p :=
  Table.get_tabulate _ _

theorem mem_unacknowledged {s : State} {p : Pos} : p ∈ s.unacknowledged ↔
    (s.node p).state = .ready ∧ acknowledged s.turnover.work p = false := by
  simp [unacknowledged, mem_allPositions, ready]

theorem unacknowledged_eq (s : State) : s.unacknowledged = allPositions.filter fun p =>
    (s.node p).state == .ready && s.turnover.work.all fun w => w.position != p || w.outcome != .acknowledged := by
  unfold unacknowledged acknowledged ready
  refine List.filter_congr fun p _ => ?_
  rw [List.not_any_eq_all_not]
  simp [bne]

/-- The switch of the nodes, field by field and port by port (R81, R129, R130). -/
theorem switchNodes_frame {s : State} (hrun : s.running = true) (epoch : Epoch) :
    s.switchNodes epoch = { s with
        ports := (s.switchNodes epoch).ports
        nodes := { s.nodes with entries := (s.switchNodes epoch).nodes.entries } } ∧
      (∀ p, acknowledged s.turnover.work p = true →
        (s.switchNodes epoch).node p = { s.node p with held := some epoch }) ∧
      (∀ p, acknowledged s.turnover.work p = false → (s.switchNodes epoch).node p =
        if (s.node p).state = .ready then { s.node p with state := .stale } else s.node p) ∧
      ∀ q, (s.switchNodes epoch).port q =
        s.unacknowledged.foldl (fun h p => h.toldStale s .switch p) (s.port q) := by
  have ready (p : Pos) : (s.withAcks epoch).ready p = s.ready p := by
    unfold State.ready
    rw [withAcks_node]
    split <;> rfl
  have switched : s.switchNodes epoch = (s.withAcks epoch).changeNodes s.unacknowledged NodeEntry.toStale .switch := by
    simp only [unacknowledged, ← ready]
    rfl
  have unacked (p : Pos) (h : acknowledged s.turnover.work p = false) : (s.withAcks epoch).node p = s.node p := by
    rw [withAcks_node, h, if_neg Bool.false_ne_true]
  obtain ⟨frame, nodes, ports⟩ := changeNodes_toStale (s := s.withAcks epoch) (l := s.unacknowledged) hrun
    ((List.nodup_finRange 15).filter _) (fun p hp => by
      obtain ⟨h, ha⟩ := mem_unacknowledged.mp hp
      rw [unacked p ha, h]) .switch
  rw [← switched] at frame nodes ports
  refine ⟨frame, fun p h => ?_, fun p h => ?_, fun q => ?_⟩
  · rw [nodes p, if_neg fun hp => Bool.false_ne_true ((mem_unacknowledged.mp hp).2.symm.trans h), withAcks_node, if_pos h]
  · rw [nodes p, unacked p h]
    exact if_congr (by rw [mem_unacknowledged]; exact and_iff_left h) rfl rfl
  · rw [ports q]
    refine List.foldl_ext _ _ _ fun h p hp => ?_
    rw [HostPort.toldStale, unacked p (mem_unacknowledged.mp hp).2]
    rfl

end State

end Sys2Proof.Machine
end

section
/-! SUPPORT. The switch cycle (R80, R81, R82, R89). -/

namespace Sys2Proof.Machine

namespace State

/-! ### The state that a switch leaves -/

/-- Views, plans and Slot Mover of the switch are those of its tables (R81). -/
theorem switchOver_tables (s : State) : s.switchOver.streams = s.switchedTables.streams ∧
    s.switchOver.plans = s.switchedTables.plans ∧ s.switchOver.mover = s.switchedTables.mover := by
  obtain ⟨claim, e⟩ := changeNodes_frame _ _ _ _
  rw [switchOver_eq, switchNodes]
  dsimp only
  rw [e]
  exact ⟨rfl, rfl, rfl⟩

/-- What a switch makes of the views, the plans, the delivery tables and the controller (R34, R81, R82, R151). -/
theorem switchOver_views {s : State} {plan : Plan} {target : Epoch} (htarget : s.turnover.target = some target)
    (hplan : s.plans.outgoing = some plan) :
    (∀ id, s.switchOver.entry id = { s.entry id with inForce := (s.entry id).outgoing, outgoing := none }) ∧
    s.switchOver.plans.inForce = plan ∧ s.switchOver.plans.outgoing = none ∧
    ((∃ r ∈ s.ring.sent, r.epoch = s.plans.inForce.epoch) →
      s.switchOver.plans.retired = some s.plans.inForce ∧
        s.switchOver.mover.retiredDelivery = some s.mover.delivery) ∧
    ((∀ r ∈ s.ring.sent, r.epoch ≠ s.plans.inForce.epoch) →
      s.switchOver.plans.retired = none ∧ s.switchOver.mover.retiredDelivery = none) ∧
    s.switchOver.mover.delivery = deliveryTableOf s.outgoingView ∧
    s.switchOver.turnover = s.turnover.switched target s.admission.batchEmpty s.ring.gatherWindow := by
  obtain ⟨streams, plans, mover⟩ := s.switchOver_tables
  have awaits : s.ring.awaits s.plans.inForce.epoch = true ↔ ∃ r ∈ s.ring.sent, r.epoch = s.plans.inForce.epoch := by
    simp [Ring.awaits]
  have turnover : s.switchOver.turnover = s.turnover.switched (s.turnover.target.getD s.turnover.epoch)
    s.admission.batchEmpty s.ring.gatherWindow := rfl
  rw [plans, mover, turnover, htarget]
  refine ⟨fun id => ?_, ?_, rfl, fun h => ?_, fun h => ?_, rfl, rfl⟩
  · rw [entry, streams]
    exact Table.get_map _ _ _
  · simp [switchedTables, hplan]
  · simp [switchedTables, Mover.switchOver, awaits.mpr h]
  · have gone : s.ring.awaits s.plans.inForce.epoch = false :=
      Bool.eq_false_iff.mpr fun ha => by obtain ⟨r, hr, he⟩ := awaits.mp ha; exact h r hr he
    simp [switchedTables, Mover.switchOver, gone]

/-- What a switch makes of the nodes and the ports, its NODE_STATE notices ahead of SETTLED (R20, R81, R129, R130;
log 10). -/
theorem switchOver_told {s : State} {target : Epoch} (hrun : s.running = true)
    (htarget : s.turnover.target = some target) :
    (∀ p, acknowledged s.turnover.work p = true → s.switchOver.node p = { s.node p with held := some target }) ∧
    (∀ p, acknowledged s.turnover.work p = false → s.switchOver.node p =
      if (s.node p).state = .ready then { s.node p with state := .stale } else s.node p) ∧
    ∀ q, s.switchOver.port q =
      (s.unacknowledged.foldl (fun h p => h.toldStale s .switch p)
        ((s.port q).switchGaps q s.inForceView s.outgoingView)).postEach
          (if s.turnover.outTickets.get q = 0 then [] else [.settled (s.turnover.outTickets.get q) target]) := by
  obtain ⟨-, acked, unacked, ports⟩ := switchNodes_frame (s := s.switchedTables) hrun target
  have switched := s.switchOver_eq
  rw [htarget, Option.getD_some] at switched
  refine ⟨fun p h => ?_, fun p h => ?_, fun q => ?_⟩
  · rw [switched]; exact acked p h
  · rw [switched]; exact unacked p h
  · rw [switched]
    refine (postAll_port _ _ q).trans ?_
    rw [settledNotices_heard, ports q]
    congr 2
    exact Table.get_tabulate _ _

/-- A port after a switch is the port before it, with its new gap counters, told in order (log 10). -/
theorem switched_port {s : State} {h : HostPort} {q : Port} {target : Epoch}
    (told : h = (s.unacknowledged.foldl (fun h p => h.toldStale s .switch p)
      ((s.port q).switchGaps q s.inForceView s.outgoingView)).postEach
        (if s.turnover.outTickets.get q = 0 then [] else [.settled (s.turnover.outTickets.get q) target])) :
    h.gaps = ((s.port q).switchGaps q s.inForceView s.outgoingView).gaps ∧
    h =
      let told := (allPositions.filter fun p => (s.node p).state == .ready &&
          s.turnover.work.all fun w => w.position != p || w.outcome != .acknowledged).foldl
        (fun h p => h.toldStale s .switch p) { s.port q with gaps := h.gaps }
      if s.turnover.outTickets.get q = 0 then told
      else told.post (.settled (s.turnover.outTickets.get q) target) := by
  have gaps : h.gaps = ((s.port q).switchGaps q s.inForceView s.outgoingView).gaps := by
    rw [told]
    split
    · exact HostPort.foldl_toldStale_gaps _ _ _ _
    · exact (HostPort.post_gaps _ _).trans (HostPort.foldl_toldStale_gaps _ _ _ _)
  refine ⟨gaps, ?_⟩
  rw [← unacknowledged_eq, gaps, told]
  split <;> rfl

/-- The stream's post buffer and sequence counter after a switch (R147, R148). -/
theorem switchOver_buffers (s : State) (id : StreamId) :
    s.switchOver.mover.posts.get id =
      (if emptiesPost (s.entry id).inForce (s.entry id).outgoing then .empty else s.mover.posts.get id) ∧
    s.switchOver.mover.sequences.get id =
      if (s.entry id).inForce = none ∧ (s.entry id).outgoing ≠ none then 0 else s.mover.sequences.get id := by
  obtain ⟨-, -, mover⟩ := s.switchOver_tables
  rw [mover]
  simp [switchedTables, Mover.switchOver, Option.isSome_iff_ne_none]

/-! ### The fill of a page -/

theorem hostOn_iff {s : State} {k : Page} {id : StreamId} : s.hostOn k id = true ↔
    (∃ pl ∈ s.plans.inForce.layouts.get k, pl.stream = id) ∧
      ∃ d, (s.entry id).inForce = some d ∧ d.source = .host := by
  unfold hostOn
  cases (s.entry id).inForce <;> simp

theorem moverAfter_of_hostOn {s : State} {k : Page} {id : StreamId} (h : s.hostOn k id = true) :
    (s.moverAfter k).posts.get id = bufferAfter (s.mover.posts.get id) ∧
      (s.moverAfter k).sequences.get id = sequenceAfter (s.mover.posts.get id) (s.mover.sequences.get id) := by
  simp [moverAfter, h]

theorem moverAfter_of_not_hostOn {s : State} {k : Page} {id : StreamId} (h : s.hostOn k id = false) :
    (s.moverAfter k).posts.get id = s.mover.posts.get id ∧
      (s.moverAfter k).sequences.get id = s.mover.sequences.get id := by
  simp [moverAfter, h]

/-! ### The cycle -/

/-- The switch cycle is composed of the state that the switch leaves (R80, R89; log 10). -/
theorem sendCycle_of_switch {s : State} {plan : Plan} {target : Epoch} (hstate : s.turnover.state = .switching)
    (hcount : s.ring.nextCount.toNat % 8 = 0) (htarget : s.turnover.target = some target)
    (hplan : s.plans.outgoing = some plan) :
    s.sendCycle = { s.switchOver with
      mover := s.switchOver.moverAfter 0
      control := (s.switchOver.controlFor s.ring.nextCount).control
      ring := s.ring.afterCycle target (s.switchOver.controlFor s.ring.nextCount).awaits
        (s.switchOver.hubOctets s.ring.nextCount) } := by
  have due : s.switchDue s.ring.nextCount = true := by simp [switchDue, hstate, hcount]
  obtain ⟨-, -, -, -, -, -, turnover⟩ := switchOver_views htarget hplan
  have epoch : s.switchOver.turnover.epoch = target := by rw [turnover]; rfl
  rw [sendCycle_eq, composing_of_due due, pageOf_of_multiple hcount, hstate, epoch]
  rfl

end State

/-- Settles O44: the cycle is composed of the state that the switch leaves, and each clause is that of the switch, of
its cycle's octets, or of the fill of page 0. -/
theorem switchCyclePutsPlanInForce : Obligations.SwitchCyclePutsPlanInForce := by
  intro s plan target hrun hstate hcount htarget hplan
  have running : s.running = true := by simp [State.running, hrun]
  have sends : s.ring.sends = true := by simp [Ring.sends, hrun]
  have sent := State.sendCycle_of_switch hstate hcount htarget hplan
  have frame := s.switchOver_frame
  obtain ⟨views, inForce, outgoing, kept, gone, delivery, turnover⟩ := State.switchOver_views htarget hplan
  obtain ⟨acked, unacked, ports⟩ := State.switchOver_told running htarget
  have buffers := s.switchOver_buffers
  have cycle : exec .hubCycle s = .next s.sendCycle := congrArg _ (if_pos sends)
  refine ⟨s.sendCycle, (s.switchOver.controlFor s.ring.nextCount).awaits, cycle, ?_⟩
  rw [sent]
  generalize s.switchOver = v at *
  have ring : v.ring = s.ring := by rw [frame]
  have control : v.control = s.control := by rw [frame]
  refine ⟨?_, ?_, views, inForce, outgoing, kept, gone, ?_, fun w hw ha => ?_, fun p hp => ?_, ?_, ?_, ?_, delivery,
    fun id => ?_, fun q => ?_⟩
  · rw [frame]
    rfl
  · rw [← ring, ← control]
    exact State.controlFor_composes (v.controlOf_hubOctets v.ring.nextCount)
  · refine turnover.trans ?_
    simp [Turnover.switched]
  · exact acked w.position (List.any_eq_true.mpr ⟨w, hw, by simp [ha]⟩)
  · exact unacked p (acknowledged_eq_false.mpr hp)
  · refine (epochOf_cycleOctets _ _ _ _ _ _ _ _).trans ?_
    rw [turnover]; rfl
  · refine (turnoverOf_cycleOctets _ _ _ _ _ _ _ _).trans ?_
    rw [turnover]
    cases s.admission.batchEmpty <;> rfl
  · exact countOf_cycleOctets _ _ _ _ _ _ _ _
  · intro emptied buffer counter
    obtain ⟨posts, sequences⟩ := buffers id
    refine ⟨fun ⟨pl, d, hpl, hid, hd, hhost⟩ => ?_, fun h => ?_⟩
    · have filled : v.hostOn 0 id = true := State.hostOn_iff.mpr
        ⟨⟨pl, by rw [inForce]; exact hpl, hid⟩, d, by rw [views]; exact hd, hhost⟩
      have after' := State.moverAfter_of_hostOn filled
      rw [posts, sequences] at after'
      exact after'
    · have unfilled : v.hostOn 0 id = false := Bool.eq_false_iff.mpr fun filled => by
        obtain ⟨⟨pl, hpl, hid⟩, d, hd, hhost⟩ := State.hostOn_iff.mp filled
        rw [inForce] at hpl
        rw [views] at hd
        exact h.elim (fun h => h pl hpl hid) fun h => h d hd hhost
      have after' := State.moverAfter_of_not_hostOn unfilled
      rw [posts, sequences] at after'
      exact after'
  · intro told told' receives
    obtain ⟨gaps, heard⟩ := State.switched_port (s := s) (ports q)
    refine ⟨heard, fun id => ?_⟩
    have counter : (v.port q).gaps.get id = _ := (congrArg (Table.get · id) gaps).trans (Table.get_tabulate _ _)
    rw [s.outgoingView_get, s.inForceView_get] at counter
    have hears (w : Option Descriptor) : q ∈ receiversOf w ↔ receives w := mem_receiversOf
    refine ⟨fun ⟨new, old⟩ => counter.trans (if_pos ⟨(hears _).mpr new, mt (hears _).mp old⟩), fun h =>
      counter.trans (if_neg fun ⟨new, old⟩ => ?_)⟩
    exact h.elim (· ((hears _).mp new)) fun r => old ((hears _).mpr r)

end Sys2Proof.Machine
end

section
/-! SUPPORT. The operations that keep page totals, derived plans and post buffers: `State.keeps`. -/

namespace Sys2Proof.Machine

set_option Elab.async false

/-- Page totals stay within the payload area, plans derived from their views, and post buffers at their streams'
sizes (R24, R28, R147). -/
structure State.keeps (s t : State) : Prop where
  pages : s.pagesWithin → t.pagesWithin
  plans : s.plansMatch → t.plansMatch
  posts : s.postsFit → t.postsFit

/-! ### Page totals -/

/-- A page total follows its streams' shares (R28). -/
theorem pageTotal_mono {v w : ViewTable} {k : Page} (h : ∀ id, shareOn k (w.get id) ≤ shareOn k (v.get id)) :
    pageTotal w k ≤ pageTotal v k := List.sum_le_sum fun id _ => h id

/-- A view with one entry's share not raised (R28). -/
theorem pageTotal_set_le {v : ViewTable} {id : StreamId} {d : Option Descriptor} {k : Page}
    (h : shareOn k d ≤ shareOn k (v.get id)) : pageTotal (v.set id d) k ≤ pageTotal v k := by
  refine pageTotal_mono fun j => ?_
  rw [Table.get_set]
  split
  · next e => subst e; exact h
  · exact le_refl _

/-- The sample that a post buffer holds, NEW or HELD (R144). -/
def PostBuffer.sample : PostBuffer → Option (List Byte)
  | .empty => none
  | .fresh x | .held x => some x

theorem PostBuffer.sample_eq_some {b : PostBuffer} {x : List Byte} :
    b.sample = some x ↔ b = .fresh x ∨ b = .held x := by cases b <;> simp [sample]

@[simp] theorem bufferAfter_sample (b : PostBuffer) : (bufferAfter b).sample = b.sample := by cases b <;> rfl

namespace State

theorem postsFit_iff {s : State} : s.postsFit ↔ ∀ id d x, (s.entry id).inForce = some d →
    (s.mover.posts.get id).sample = some x → x.length = d.payload := by
  simp only [postsFit, PostBuffer.sample_eq_some]

theorem keeps_refl (s : State) : s.keeps s := ⟨id, id, id⟩

theorem keeps.trans {s t u : State} (h : s.keeps t) (h' : t.keeps u) : s.keeps u :=
  ⟨h'.pages ∘ h.pages, h'.plans ∘ h.plans, h'.posts ∘ h.posts⟩

/-- What leaves the views, the plans and the turnover's place, and puts no other sample in a post buffer, keeps
them sound. -/
theorem keeps_of_same {s t : State} (streams : t.streams = s.streams := by rfl)
    (inForce : t.plans.inForce = s.plans.inForce := by rfl) (outgoing : t.plans.outgoing = s.plans.outgoing := by rfl)
    (flight : t.turnover.inFlight = s.turnover.inFlight := by rfl)
    (target : t.turnover.target = s.turnover.target := by rfl)
    (epoch : t.turnover.epoch = s.turnover.epoch := by rfl)
    (posts : s.postsFit → t.postsFit) : s.keeps t where
  pages := by unfold pagesWithin stagedView outgoingView inForceView; rw [streams]; exact id
  plans := by
    unfold plansMatch outgoingView inForceView entry
    rw [streams, inForce, outgoing, flight, target, epoch]
    exact id
  posts := posts

/-- What leaves views, plans, the turnover's place and post buffers keeps them sound. -/
theorem keeps_of_untouched {s t : State} (streams : t.streams = s.streams := by rfl)
    (inForce : t.plans.inForce = s.plans.inForce := by rfl) (outgoing : t.plans.outgoing = s.plans.outgoing := by rfl)
    (flight : t.turnover.inFlight = s.turnover.inFlight := by rfl)
    (target : t.turnover.target = s.turnover.target := by rfl)
    (epoch : t.turnover.epoch = s.turnover.epoch := by rfl)
    (posts : t.mover.posts = s.mover.posts := by rfl) : s.keeps t :=
  keeps_of_same streams inForce outgoing flight target epoch
    (by unfold postsFit entry; rw [streams, posts]; exact id)

/-! ### Notices, exchanges, nodes, the ring's state -/

theorem changeNodes_keeps (s : State) (ps : List Pos) (f : NodeEntry → NodeEntry) (c : NodeCause) :
    s.keeps (s.changeNodes ps f c) := by
  obtain ⟨claim, e⟩ := s.changeNodes_frame ps f c
  rw [e]
  exact keeps_of_untouched

theorem changeNode_keeps (s : State) (p : Pos) (f : NodeEntry → NodeEntry) (c : NodeCause) :
    s.keeps (s.changeNode p f c) := keeps_of_untouched

theorem enterRing_keeps (s : State) (st : RingState) (r : RingReason) : s.keeps (s.enterRing st r) :=
  keeps_of_untouched

/-- Gathering starts where no turnover is in flight, and leaves none in flight (R67). -/
theorem noteBatch_keeps (s : State) : s.keeps s.noteBatch := by
  have gathers : s.noteBatch.turnover.inFlight = s.turnover.inFlight ∧
      s.noteBatch.turnover.target = s.turnover.target ∧ s.noteBatch.turnover.epoch = s.turnover.epoch := by
    simp only [noteBatch]
    split
    · rcases s.turnover.startGathering_cases s.running s.ring.gatherWindow with ⟨-, e⟩ | ⟨h, -, -, e⟩ | ⟨h, -, e⟩ <;>
        rw [e]
      · exact ⟨rfl, rfl, rfl⟩
      all_goals exact ⟨by rw [Turnover.inFlight, Turnover.inFlight, h]; rfl, rfl, rfl⟩
    · exact ⟨rfl, rfl, rfl⟩
  exact keeps_of_untouched (flight := gathers.1) (target := gathers.2.1) (epoch := gathers.2.2)

/-- An abandon leaves no outgoing plan, view or target (R83). -/
theorem abandon_keeps (s : State) : s.keeps s.abandon := by
  by_cases h : s.turnover.inFlight = true
  · have frame := s.abandon_frame
    have mover : s.abandon.mover = s.mover := by rw [frame]
    have plan : s.abandon.plans.inForce = s.plans.inForce := by rw [frame]
    have epoch : s.abandon.turnover.epoch = s.turnover.epoch := by rw [frame]
    have gone : s.abandon.turnover.target = none ∧ s.abandon.plans.outgoing = none ∧
        ∀ id, (s.abandon.entry id).outgoing = none := by
      unfold abandon
      rw [if_pos h]
      exact ⟨rfl, rfl, fun id => by simp [entry, Entry.abandoned]⟩
    have inForce : s.abandon.inForceView = s.inForceView := Table.ext_get fun id => by simp
    have staged : s.abandon.stagedView = s.stagedView := Table.ext_get fun id => by simp
    refine ⟨fun hp k => ?_, fun hp => ?_, fun hp id d x hd hx => ?_⟩
    · obtain ⟨hs, -, hi⟩ := hp k
      have empty : s.abandon.outgoingView = Table.fill none := Table.ext_get fun id => by simp [gone.2.2 id]
      rw [staged, inForce, empty, pageTotal_absent]
      exact ⟨hs, Nat.zero_le _, hi⟩
    · unfold plansMatch
      rw [abandon_not_inFlight, if_neg Bool.false_ne_true, plan, inForce, epoch]
      exact ⟨hp.1, gone⟩
    · rw [abandon_inForce] at hd
      rw [mover] at hx
      exact hp id d x hd hx
  · rw [abandon_of_not_inFlight (by simpa using h)]
    exact s.keeps_refl

theorem leaveRunning_keeps (s : State) (failing : Bool) : s.keeps (s.leaveRunning failing) := by
  have fails : s.keeps (if failing then s.failVerification else s) := by
    split
    · exact changeNodes_keeps _ _ _ _
    · exact s.keeps_refl
  unfold leaveRunning
  split
  · exact (fails.trans keeps_of_untouched).trans (abandon_keeps _)
  · exact s.keeps_refl

theorem halt_keeps (s : State) (r : RingReason) : s.keeps (s.halt r) :=
  (s.leaveRunning_keeps true).trans (enterRing_keeps _ _ _)

theorem endRingWork_keeps (s : State) : s.keeps s.endRingWork :=
  (s.leaveRunning_keeps false).trans keeps_of_untouched

/-! ### Transactions and sessions -/

/-- An accepted post has the payload size of its stream in force (R145). -/
theorem judgePost_accepted {s : State} {p : Port} {taken : List Byte} {id : StreamId}
    (h : s.judgePost p taken = .accepted id) :
    ∃ d, (s.entry id).inForce = some d ∧ taken.tail.length = d.payload := by
  unfold judgePost at h
  repeat' split at h
  all_goals cases h
  next d fits _ hd => exact ⟨d, hd, fits.2.2⟩

theorem takePost_keeps (s : State) (p : Port) (taken : List Byte) : s.keeps (s.takePost p taken) := by
  refine keeps_of_same (posts := fun h => postsFit_iff.mpr fun id d x hd hx => ?_)
  have kept := postsFit_iff.mp h id d x hd
  simp only [takePost] at hx
  split at hx
  · next j hj =>
    rw [Table.get_set] at hx
    split at hx
    · next e =>
      subst e
      obtain ⟨d', hd', size⟩ := judgePost_accepted hj
      cases hx
      cases hd.symm.trans hd'
      exact size
    · exact kept hx
  all_goals exact kept hx

theorem finish_keeps (s : State) (p : Port) (t : Txn) : s.keeps (s.finish p t) := by
  unfold finish
  split
  · exact (s.takePost_keeps p _).trans keeps_of_untouched
  · exact keeps_of_untouched

theorem finishEnded_keeps (s : State) (p : Port) : s.keeps (s.finishEnded p) :=
  finishEnded_induct (P := s.keeps) (fun u t h => h.trans (u.finish_keeps p t)) s keeps_of_untouched

/-- A session end empties post buffers and fills none (R147). -/
theorem endSession_keeps (s : State) (p : Port) : s.keeps (s.endSession p) := by
  refine keeps_of_same (posts := fun h => postsFit_iff.mpr fun id d x hd hx => ?_)
  simp only [endSession, Table.get_tabulate] at hx
  split at hx
  · cases hx
  · exact postsFit_iff.mp h id d x hd hx

theorem lapse_keeps (s : State) (p : Port) : s.keeps (s.lapse p) := by
  rcases s.lapse_cases p with ⟨-, e⟩ | ⟨-, e⟩ <;> rw [e]
  · exact ((s.endSession_keeps p).trans keeps_of_untouched).trans (finishEnded_keeps _ p)
  · exact keeps.trans keeps_of_untouched (finishEnded_keeps _ p)

theorem grantLapse_keeps (s : State) (p : Port) : s.keeps (s.grantLapse p) := by
  rcases s.grantLapse_cases p with ⟨-, e⟩ | ⟨-, -, e⟩ <;> rw [e]
  · exact s.keeps_refl
  · exact s.lapse_keeps p

theorem settleLapses_keeps (s : State) : s.keeps s.settleLapses := by
  refine settleLapses_induct (P := s.keeps) (fun u p h => h.trans ?_) s s.keeps_refl
  unfold settleLapse
  split
  · exact u.lapse_keeps p
  · exact u.keeps_refl

theorem release_keeps (s : State) (p : Port) : s.keeps (s.release p) := by
  unfold release
  split
  · exact s.keeps_refl
  · dsimp only
    repeat' split
    · exact keeps_of_untouched
    · exact keeps_of_untouched
    · exact keeps.trans keeps_of_untouched (finish_keeps _ p _)

theorem transact_keeps (s : State) (k : TxnKind) (p : Port) (bits : List Bool) (release : Bool) :
    s.keeps (s.transact k p bits release) := by
  unfold transact
  split
  · exact keeps_of_untouched
  · have clocks : s.keeps ((s.grantLapse p).clocked p bits) := (s.grantLapse_keeps p).trans keeps_of_untouched
    dsimp only
    repeat' split
    · exact clocks.trans (release_keeps _ p)
    · exact clocks
    · exact s.grantLapse_keeps p

/-! ### Items -/

theorem takeUnknown_keeps (s : State) : s.keeps s.takeUnknown := by
  rcases s.takeUnknown_cases with e | ⟨p, f, r, -, -, e⟩ <;> rw [e]
  · exact s.keeps_refl
  · exact keeps_of_untouched

/-- A request command keeps what its effect keeps. -/
theorem takeRequest_keeps (s : State) (k : RequestKind) {act : Port → List Byte → Effect}
    (h : ∀ p f (u : State), u.keeps (act p f u).1) : s.keeps (s.takeRequest k act) := by
  have settled : s.keeps s.settleLapses.settleUnknown :=
    s.settleLapses_keeps.trans <|
      takeUnknowns_induct (P := s.settleLapses.keeps) (fun u h => h.trans u.takeUnknown_keeps) 16 _ (keeps_refl _)
  rcases s.takeRequest_cases k act with e | ⟨p, f, -, -, e⟩ <;> rw [e]
  · exact settled
  generalize s.settleLapses.settleUnknown = u at settled
  have checks : (u.beginItem p f).keeps (checked k p f (act p f) (u.beginItem p f)).1 := by
    rcases checked_cases k p f (act p f) (u.beginItem p f) with ⟨-, -, c⟩ | ⟨-, -, c⟩ | ⟨-, -, c⟩ <;> rw [c]
    · exact keeps_refl _
    · exact keeps_refl _
    · exact h p f _
  have begun : s.keeps (checked k p f (act p f) (u.beginItem p f)).1 :=
    (settled.trans (keeps_of_untouched (t := u.beginItem p f))).trans checks
  rcases u.runItem_cases p f (checked k p f (act p f)) with ⟨r, -, e⟩ | ⟨-, e⟩ <;> rw [e]
  · exact begun.trans keeps_of_untouched
  · exact begun

/-! ### Returns -/

theorem engine_keeps (s : State) (r : CycleRecord) (cls : ReturnClass) : s.keeps (s.engine r cls) := by
  have left (g : Ring) (st : RingState) (reason : RingReason) :
      s.keeps ((({ s with ring := g } : State).leaveRunning true).enterRing st reason) :=
    keeps.trans keeps_of_untouched ((leaveRunning_keeps _ _).trans (enterRing_keeps _ _ _))
  unfold engine missInRunning returnInRunning goodInBroken
  dsimp only
  repeat' split
  any_goals exact s.keeps_refl
  any_goals exact left _ _ _
  all_goals exact keeps_of_untouched

theorem identifyNext_keeps (s : State) (p : Pos) : s.keeps (s.identifyNext p) := by
  unfold identifyNext
  repeat' split
  all_goals exact keeps_of_untouched

theorem giveUp_keeps (s : State) (u : User) (p : Pos) : s.keeps (s.giveUp u p) := by
  cases u with
  | identification => exact keeps.trans (keeps_of_untouched (t := s.updateNode p _)) (identifyNext_keeps _ p)
  | refresh =>
    simp only [giveUp, refreshFailed]
    split <;> exact keeps_of_untouched
  | numbering | verification | distribution => exact keeps_of_untouched

theorem attemptFailed_keeps (s : State) (x : Exchange) : s.keeps (s.attemptFailed x) := by
  have numbering : s.keeps s.closeExchange.numberingFailed := by
    unfold numberingFailed
    repeat' split
    all_goals exact keeps_of_untouched
  unfold attemptFailed
  repeat' split
  · exact numbering
  · exact keeps_of_untouched
  · exact keeps.trans (keeps_of_untouched (t := s.closeExchange)) (giveUp_keeps _ _ _)

theorem nakHeard_keeps (s : State) (x : Exchange) : s.keeps (s.nakHeard x) := by
  unfold nakHeard
  split
  · exact s.keeps_refl
  · split
    · exact keeps.trans (keeps_of_untouched (t := s.closeExchange)) (giveUp_keeps _ _ _)
    · dsimp only
      repeat' split
      all_goals exact keeps_of_untouched

theorem ackHeard_keeps (s : State) (x : Exchange) : s.keeps (s.ackHeard x) := by
  unfold ackHeard refreshAcked
  dsimp only
  repeat' split
  all_goals exact keeps_of_untouched

theorem verified_keeps (s : State) (p : Pos) (i : Identity) (held : Option Epoch) :
    s.keeps (s.verified p i held) := by
  unfold verified
  split
  · exact keeps_of_untouched
  · exact keeps.trans (keeps_of_untouched (t := s.verifyNext)) (halt_keeps _ _)

theorem identityHeard_keeps (s : State) (x : Exchange) (i : Identity) (held : Option Epoch) :
    s.keeps (s.identityHeard x i held) := by
  unfold identityHeard
  split
  · exact keeps.trans (keeps_of_untouched (t := s.closeExchange.updateNode _ _)) (identifyNext_keeps _ _)
  · exact keeps.trans (keeps_of_untouched (t := s.closeExchange)) (verified_keeps _ _ _ _)
  · exact keeps_of_untouched

theorem channel_keeps (s : State) (r : CycleRecord) (cls : ReturnClass) (d : Nat) :
    s.keeps (s.channel r cls d) := by
  have returned (c : Nat) : s.keeps (s.closeExchange.numberingReturned c d) := by
    unfold numberingReturned
    dsimp only
    repeat' split
    all_goals exact keeps_of_untouched
  unfold channel
  repeat' split
  · exact s.attemptFailed_keeps _
  · exact returned _
  · exact s.identityHeard_keeps _ _ _
  · exact s.ackHeard_keeps _
  · exact s.nakHeard_keeps _
  all_goals exact s.keeps_refl

theorem extract_keeps (s : State) (r : CycleRecord) (cls : ReturnClass) (drains : List (List DrainPart)) :
    s.keeps (s.extract r cls drains) := by
  unfold extract
  split
  · exact s.keeps_refl
  · exact handle_induct (P := s.keeps) (fun u d h => h.trans (u.transact_keeps _ _ _ _))
      (fun u p pl h => h.trans keeps_of_untouched) _ _ s s.keeps_refl

/-- Distribution that goes on stays in flight (R79). -/
theorem advanceWork_keeps (s : State) : s.keeps s.advanceWork := by
  have goes : s.advanceWork.turnover.inFlight = s.turnover.inFlight ∧
      s.advanceWork.turnover.target = s.turnover.target ∧ s.advanceWork.turnover.epoch = s.turnover.epoch := by
    simp only [advanceWork, Turnover.advance]
    split
    · next h => refine ⟨?_, rfl, rfl⟩; simp only [Turnover.inFlight, h]; split <;> rfl
    · exact ⟨rfl, rfl, rfl⟩
  exact keeps_of_untouched (flight := goes.1) (target := goes.2.1) (epoch := goes.2.2)

theorem discardRetired_keeps (s : State) : s.keeps s.discardRetired := keeps_of_untouched

/-- The record of the oldest awaited cycle released for its evaluation (R96, R97; log 16). -/
def released (s : State) (r : CycleRecord) (cls : ReturnClass) : State :=
  { s with ring := { s.ring with sent := s.ring.sent.tail, beaconed := s.ring.beaconedAfter r cls } }

/-- One return goes through the blocks in turn (R97; log 16). -/
theorem evaluate_eq (s : State) (r : CycleRecord) (cls : ReturnClass) (d : Nat) (drains : List (List DrainPart)) :
    s.evaluate r cls d drains =
      (((((s.released r cls).engine r cls).channel r cls d).extract r cls drains).discardRetired).advanceWork := rfl

theorem evaluate_keeps (s : State) (r : CycleRecord) (cls : ReturnClass) (d : Nat)
    (drains : List (List DrainPart)) : s.keeps (s.evaluate r cls d drains) := by
  have released : s.keeps (s.released r cls) := keeps_of_untouched
  have heard := (released.trans (engine_keeps _ r cls)).trans (channel_keeps _ r cls d)
  exact heard.trans (((extract_keeps _ r cls drains).trans (discardRetired_keeps _)).trans (advanceWork_keeps _))

end State
end Sys2Proof.Machine
end

section
/-! SUPPORT. Edits, the freeze, the switch, the entry into OFF, the reconciliation and the resets keep page totals,
derived plans and post buffers; and then every command does. -/

namespace Sys2Proof.Machine

set_option Elab.async false

/-! ### Edits -/

/-- An edited staged view within the page totals (R28, R36). -/
def Edit.within (e : Edit) (v : ViewTable) : Prop :=
  (∀ k, pageTotal v k ≤ 224) → ∀ k, pageTotal (v.set e.id e.staged) k ≤ 224

/-- An edit that does not raise its stream's share is within the page totals (R28). -/
theorem Edit.within_of_share {e : Edit} {v : ViewTable}
    (h : ∀ k, shareOn k e.staged ≤ shareOn k (v.get e.id)) : e.within v :=
  fun hv k => (pageTotal_set_le (h k)).trans (hv k)

theorem Edit.within_of_measure {s : State} {e : Edit} {v : ViewTable} {p : Port} {d : Descriptor} {u : Unit}
    (h : s.measure (v.set e.id e.staged) p d = .ok u) : e.within v := by
  unfold State.measure at h
  split at h
  · cases h
  · next full => exact fun _ => State.fullPage_eq_none.mp full

namespace State

theorem judgeOpen_within {p : Port} {f : List Byte} {s : State} {e : Edit} (h : judgeOpen p f s = .ok e) :
    e.within s.stagedView := by
  unfold judgeOpen at h
  dsimp only at h
  repeat' split at h
  all_goals cases h
  next hm => exact Edit.within_of_measure hm

theorem judgeAlter_within {p : Port} {f : List Byte} {s : State} {e : Edit} (h : judgeAlter p f s = .ok e) :
    e.within s.stagedView := by
  unfold judgeAlter at h
  dsimp only at h
  repeat' split at h
  all_goals cases h
  next hm => exact Edit.within_of_measure hm

theorem judgeClose_within {p : Port} {f : List Byte} {s : State} {e : Edit} (h : judgeClose p f s = .ok e) :
    e.within s.stagedView := by
  unfold judgeClose at h
  repeat' split at h
  all_goals cases h
  exact Edit.within_of_share fun k => Nat.zero_le _

theorem judgeSubscribe_within {p : Port} {f : List Byte} {s : State} {e : Edit} (h : judgeSubscribe p f s = .ok e) :
    e.within s.stagedView := by
  unfold judgeSubscribe at h
  repeat' split at h
  all_goals cases h
  next d hd _ _ => exact Edit.within_of_share fun k => by rw [stagedView_get, hd]; exact le_refl _

theorem judgeUnsubscribe_within {p : Port} {f : List Byte} {s : State} {e : Edit}
    (h : judgeUnsubscribe p f s = .ok e) : e.within s.stagedView := by
  unfold judgeUnsubscribe at h
  repeat' split at h
  all_goals cases h
  next d hd _ => exact Edit.within_of_share fun k => by rw [stagedView_get, hd]; exact le_refl _

theorem judgeHandover_within {p : Port} {f : List Byte} {s : State} {e : Edit} (h : judgeHandover p f s = .ok e) :
    e.within s.stagedView := by
  unfold judgeHandover at h
  repeat' split at h
  all_goals cases h
  next d hd _ _ _ _ => exact Edit.within_of_share fun k => by rw [stagedView_get, hd]; exact le_refl _

/-- A batch edit that changes staged views within the page totals keeps what is derived from the others (R5, R28). -/
theorem keeps_of_staged (s : State) (streams : Table Entry 48) (admission : Admission)
    (outgoing : ∀ id, (streams.get id).outgoing = (s.entry id).outgoing)
    (inForce : ∀ id, (streams.get id).inForce = (s.entry id).inForce)
    (staged : s.pagesWithin → ∀ k, pageTotal (streams.map Entry.staged) k ≤ 224) :
    s.keeps ({ s with streams := streams, admission := admission } : State).noteBatch := by
  refine keeps.trans (t := { s with streams := streams, admission := admission }) ?_ (noteBatch_keeps _)
  have out : (streams.map Entry.outgoing : ViewTable) = s.outgoingView := Table.ext_get fun id => by simp [outgoing]
  have force : (streams.map Entry.inForce : ViewTable) = s.inForceView := Table.ext_get fun id => by simp [inForce]
  refine ⟨fun h k => ⟨staged h k, ?_⟩, fun h => ?_, fun h id d x hd => h id d x ((inForce id).symm.trans hd)⟩
  · simp only [outgoingView, inForceView] at out force ⊢
    rw [out, force]
    exact (h k).2
  · unfold plansMatch at h ⊢
    simp only [outgoingView, inForceView, entry] at out force h outgoing ⊢
    simp only [out, force, outgoing]
    exact h

theorem postAll_keeps (s : State) (l : List (Port × Notice)) : s.keeps (s.postAll l) := keeps_of_untouched

theorem applyEdit_keeps (s : State) (p : Port) (e : Edit) (h : e.within s.stagedView) :
    s.keeps (s.applyEdit p e).1 := by
  refine (keeps_of_staged s _ _ (fun id => ?_) (fun id => ?_) fun hp k => ?_).trans (postAll_keeps _ _)
  · rw [Table.get_modify]; split <;> rfl
  · rw [Table.get_modify]; split <;> rfl
  · have staged : ((s.streams.modify e.id fun x => { x with staged := e.staged, member := true }).map Entry.staged :
        ViewTable) = s.stagedView.set e.id e.staged := Table.ext_get fun id => by
      simp only [stagedView, Table.get_map, Table.get_modify, Table.get_set]
      split <;> rfl
    rw [staged]
    exact h (fun k => (hp k).1) k

theorem editing_keeps {judge : Port → List Byte → State → Except Denial Edit}
    (h : ∀ {p f s e}, judge p f s = .ok e → e.within s.stagedView) (p : Port) (f : List Byte) (s : State) :
    s.keeps (editing judge p f s).1 := by
  rcases editing_cases judge p f s with ⟨d, -, e⟩ | ⟨d, hd, e⟩ <;> rw [e]
  · exact s.keeps_refl
  · exact s.applyEdit_keeps p d (h hd)

/-! ### Internal edits -/

end State

/-- An internal edit raises no stream's share of a page. -/
def shrinks (change : StreamId → Descriptor → StreamChange) : Prop :=
  ∀ id d d' l, change id d = some (d', l) → ∀ k, shareOn k d' ≤ shareOn k (some d)

theorem portEntryChange_shrinks (n : Port) : shrinks (portEntryChange n) := by
  intro id d d' l h k
  unfold portEntryChange at h
  repeat' split at h
  all_goals cases h
  · exact le_refl (shareOn k (some d))
  · exact Nat.zero_le _
  · exact Nat.zero_le _
  · exact le_refl (shareOn k (some d))

theorem lostChange_shrinks (p : Pos) : shrinks (lostChange p) := by
  intro id d d' l h k
  unfold lostChange at h
  dsimp only at h
  repeat' split at h
  all_goals cases h
  · exact Nat.zero_le _
  · exact le_refl (shareOn k (some d))
  · exact Nat.zero_le _

theorem changedSteps_shrinks (p : Pos) (id : StreamId) (roles : List RefRole) (d : Descriptor)
    (d' : Option Descriptor) (l : List (Port × Notice)) (h : changedSteps p id roles d = some (d', l)) (k : Page) :
    shareOn k d' ≤ shareOn k (some d) := by
  induction roles generalizing d d' l with
  | nil => cases h
  | cons role rest ih =>
    cases role with
    | source => cases h; exact Nat.zero_le _
    | sink =>
      simp only [changedSteps] at h
      repeat' split at h
      · next hs => cases h; exact ih { d with sinks := d.sinks.erase p } _ _ hs
      · cases h; exact le_refl (shareOn k (some d))
      · cases h; exact Nat.zero_le _
      · exact ih d _ _ h

theorem changedChange_shrinks (p : Pos) (refs : List (StreamId × RefRole)) : shrinks (changedChange p refs) :=
  fun id d d' l h k => changedSteps_shrinks p id _ d d' l h k

namespace State

theorem internalEdit_keeps (s : State) {change : StreamId → Descriptor → StreamChange} (h : shrinks change) :
    s.keeps (s.internalEdit change) := by
  refine (keeps_of_staged s _ _ (fun id => ?_) (fun id => ?_) fun hp k => ?_).trans (postAll_keeps _ _)
  · rw [Table.get_tabulate]; repeat' split
    all_goals rfl
  · rw [Table.get_tabulate]; repeat' split
    all_goals rfl
  · refine (pageTotal_mono fun id => ?_).trans (hp k).1
    rw [Table.get_map, Table.get_tabulate, stagedView_get]
    dsimp only
    split
    · next d l hc =>
      split at hc
      · next old ho => rw [ho]; exact h id old d l hc k
      · cases hc
    · exact le_refl _

/-! ### The freeze and the switch -/

/-- The freeze makes the outgoing views the staged ones, with the plan compiled from them (R24, R72). -/
theorem makeFreeze_keeps (s : State) : s.keeps s.makeFreeze := by
  have staged : s.makeFreeze.stagedView = s.stagedView := Table.ext_get fun id => by simp [makeFreeze, entry]
  have outgoing : s.makeFreeze.outgoingView = s.stagedView := Table.ext_get fun id => by simp [makeFreeze, entry]
  have inForce : s.makeFreeze.inForceView = s.inForceView := Table.ext_get fun id => by simp [makeFreeze, entry]
  refine ⟨fun h k => ?_, fun h => ?_, fun h id d x hd => ?_⟩
  · rw [staged, outgoing, inForce]
    exact ⟨(h k).1, (h k).1, (h k).2.2⟩
  · have flight : s.makeFreeze.turnover.inFlight = true := by
      simp only [makeFreeze, Turnover.inFlight]
      split <;> rfl
    unfold plansMatch
    rw [inForce, outgoing, flight, if_pos rfl]
    exact ⟨h.1, rfl, rfl⟩
  · rw [← inForceView_get, inForce, inForceView_get] at hd
    exact h id d x hd

theorem grantFreeze_keeps (s : State) (idle : s.turnover.inFlight = false) : s.keeps s.grantFreeze := by
  unfold grantFreeze
  split
  · exact s.makeFreeze_keeps
  · exact keeps_of_untouched (flight := idle.symm)

theorem not_inFlight_of_freezeDue {t : Turnover} (h : t.freezeDue = true) : t.inFlight = false := by
  unfold Turnover.freezeDue at h
  split at h
  · next e => rw [Turnover.inFlight, e]; rfl
  · next e => rw [Turnover.inFlight, e]; rfl
  all_goals cases h

/-- A switch that does not empty a post buffer keeps the payload size (R147). -/
theorem payload_of_not_emptied {old new : Option Descriptor} {d : Descriptor} (h : emptiesPost old new = false)
    (hd : new = some d) : ∃ d', old = some d' ∧ d'.payload = d.payload := by
  subst hd
  cases old with
  | none => cases h
  | some d' => exact ⟨d', rfl, by simpa [emptiesPost] using h⟩

/-- A switch puts each outgoing view in force (R81). -/
theorem switchOver_entry (s : State) (id : StreamId) :
    s.switchOver.entry id = { s.entry id with inForce := (s.entry id).outgoing, outgoing := none } := by
  obtain ⟨streams, -, -⟩ := s.switchOver_tables
  rw [entry, streams]
  exact Table.get_map _ _ _

/-- The switch puts the outgoing views and plan in force (R24, R81, R147). -/
theorem switchOver_keeps_derived {s : State} (flight : s.turnover.inFlight = true) : s.keeps s.switchOver := by
  obtain ⟨-, plans, -⟩ := s.switchOver_tables
  have entries := s.switchOver_entry
  have staged : s.switchOver.stagedView = s.stagedView := Table.ext_get fun id => by simp [entries]
  have outgoing : s.switchOver.outgoingView = Table.fill none := Table.ext_get fun id => by simp [entries]
  have inForce : s.switchOver.inForceView = s.outgoingView := Table.ext_get fun id => by simp [entries]
  refine ⟨fun h k => ?_, fun h => ?_, fun h => postsFit_iff.mpr fun id d x hd hx => ?_⟩
  · rw [staged, outgoing, inForce, pageTotal_absent]
    exact ⟨(h k).1, Nat.zero_le _, (h k).2.1⟩
  · obtain ⟨-, h⟩ := h
    rw [if_pos flight] at h
    obtain ⟨-, -, -, -, -, -, turnover⟩ := switchOver_views h.1 h.2
    have idle : s.switchOver.turnover.inFlight = false := by
      rw [turnover]
      simp only [Turnover.switched, Turnover.inFlight]
      split <;> rfl
    unfold plansMatch
    rw [idle, if_neg Bool.false_ne_true, inForce, plans, turnover]
    refine ⟨?_, rfl, rfl, fun id => by rw [entries]⟩
    simp only [switchedTables, h.2]
    rfl
  · rw [(s.switchOver_buffers id).1] at hx
    rw [entries] at hd
    split at hx
    · cases hx
    · next kept =>
      obtain ⟨d', hd', size⟩ := payload_of_not_emptied (by simpa using kept) hd
      rw [← size]
      exact postsFit_iff.mp h id d' x hd' hx

theorem composing_keeps (s : State) : s.keeps s.composing := by
  unfold composing
  split
  · next due =>
    refine switchOver_keeps_derived ?_
    simp only [switchDue, Bool.and_eq_true] at due
    simp [Turnover.inFlight, due.1]
  · exact s.keeps_refl

theorem sendCycle_keeps_derived (s : State) : s.keeps s.sendCycle := by
  rw [sendCycle_eq]
  refine s.composing_keeps.trans (keeps_of_same (posts := fun h => postsFit_iff.mpr fun id d x hd hx => ?_))
  refine postsFit_iff.mp h id d x hd ?_
  simp only [moverAfter, Table.get_tabulate] at hx
  split at hx
  · rwa [bufferAfter_sample] at hx
  · exact hx

/-! ### The entry into OFF, the resets, the reconciliation -/

/-- What has views, plans, controller and post buffers as after a reset is sound (R23, R24, R108, R176). -/
theorem keeps_of_reset {s t : State} (streams : t.streams = State.reset.streams := by rfl)
    (plans : t.plans = State.reset.plans := by rfl) (mover : t.mover = State.reset.mover := by rfl)
    (flight : t.turnover.inFlight = false := by rfl) (target : t.turnover.target = none := by rfl)
    (epoch : t.turnover.epoch = 0 := by rfl) : s.keeps t := by
  have sound : State.reset.keeps t := keeps_of_untouched streams (congrArg _ plans) (congrArg _ plans) flight target
    epoch (congrArg _ mover)
  exact ⟨fun _ => sound.pages reset_pagesWithin, fun _ => sound.plans reset_plansMatch,
    fun _ => sound.posts reset_postsFit⟩

theorem endQuiet_keeps_derived (s : State) : s.keeps s.endQuiet := by
  unfold endQuiet
  split
  · exact keeps_of_untouched
  · exact keeps_of_reset
  · exact s.keeps_refl

/-- A position rewrite leaves every share (R8). -/
theorem shareOn_rewrite (k : Page) (v : Option Descriptor) (move : Pos → Pos) :
    shareOn k (v.map fun d => d.rewrite move) = shareOn k v := by cases v <;> rfl

theorem reconciled_inFlight (t : Turnover) : t.reconciled.inFlight = t.inFlight := by
  obtain ⟨state, _, _, _, _, _, _, _⟩ := t
  cases state <;> rfl

theorem reconcile_keeps_derived (s : State) (old : Retained) : s.keeps (s.reconcile old) := by
  let move : Pos → Pos := fun p => (newPosition old.entries s.nodes.entries p).getD p
  have entries (id : StreamId) : (s.reconcile old).entry id = (s.entry id).rewrite move := Table.get_map _ _ _
  have outgoing : (s.reconcile old).outgoingView = s.outgoingView :=
    Table.ext_get fun id => by simp [entries, Entry.rewrite]
  have flight : (s.reconcile old).turnover.inFlight = s.turnover.inFlight := reconciled_inFlight _
  refine ⟨fun h k => ?_, fun h => ?_, fun h id d x hd => ?_⟩
  · obtain ⟨hs, ho, hi⟩ := h k
    refine ⟨(pageTotal_mono fun id => ?_).trans hs, outgoing ▸ ho, (pageTotal_mono fun id => ?_).trans hi⟩
    · rw [stagedView_get, stagedView_get, entries]; exact (shareOn_rewrite k _ move).le
    · rw [inForceView_get, inForceView_get, entries]; exact (shareOn_rewrite k _ move).le
  · unfold plansMatch at h ⊢
    rw [flight, outgoing]
    refine ⟨?_, ?_⟩
    · show compile (s.reconcile old).inForceView s.plans.inForce.epoch = _
      rw [h.1]
      rfl
    · simp only [entries, Entry.rewrite]
      exact h.2
  · rw [entries] at hd
    obtain ⟨d', hd', rfl⟩ := Option.map_eq_some_iff.mp hd
    exact h id d' x hd'

/-! ### Requests -/

theorem ringLevel_keeps {p : Port} {act : Effect} {s : State} (h : s.keeps (act s).1) :
    s.keeps (ringLevel p act s).1 := by
  unfold ringLevel
  split
  · exact h
  · exact s.keeps_refl

theorem actFlush_keeps (p : Port) (f : List Byte) (s : State) : s.keeps (actFlush p f s).1 := by
  have place : (s.turnover.flushed s.admission.batchEmpty).inFlight = s.turnover.inFlight ∧
      (s.turnover.flushed s.admission.batchEmpty).target = s.turnover.target ∧
      (s.turnover.flushed s.admission.batchEmpty).epoch = s.turnover.epoch := by
    unfold Turnover.flushed
    repeat' split
    all_goals exact ⟨rfl, rfl, rfl⟩
  exact keeps_of_untouched (flight := place.1) (target := place.2.1) (epoch := place.2.2)

theorem actDetach_keeps (p : Port) (f : List Byte) (s : State) : s.keeps (actDetach p f s).1 :=
  (s.endSession_keeps p).trans keeps_of_untouched

theorem actRingStop_keeps (p : Port) (f : List Byte) (s : State) : s.keeps (actRingStop p f s).1 := by
  refine ringLevel_keeps ?_
  split
  · exact s.keeps_refl
  · exact keeps_of_untouched
  all_goals exact s.endRingWork_keeps.trans keeps_of_untouched

theorem actRingRestart_keeps (p : Port) (f : List Byte) (s : State) : s.keeps (actRingRestart p f s).1 := by
  refine ringLevel_keeps ?_
  split
  case h_4 | h_5 | h_6 | h_7 => exact s.keeps_refl
  all_goals exact s.endRingWork_keeps.trans keeps_of_untouched

theorem actStreamQuery_keeps (p : Port) (f : List Byte) (s : State) : s.keeps (actStreamQuery p f s).1 := by
  unfold actStreamQuery
  split <;> exact s.keeps_refl

theorem actNodeQuery_keeps (p : Port) (f : List Byte) (s : State) : s.keeps (actNodeQuery p f s).1 := by
  unfold actNodeQuery
  split <;> exact keeps_of_untouched

theorem actAttach_keeps (p : Port) (f : List Byte) (s : State) : s.keeps (actAttach p f s).1 := by
  unfold actAttach
  split <;> exact keeps_of_untouched

theorem actSetQuota_keeps_derived (p : Port) (f : List Byte) (s : State) : s.keeps (actSetQuota p f s).1 := by
  unfold actSetQuota
  repeat' split
  · exact ringLevel_keeps keeps_of_untouched
  all_goals exact s.keeps_refl

theorem actSetRingParameters_keeps (p : Port) (f : List Byte) (s : State) :
    s.keeps (actSetRingParameters p f s).1 := by
  unfold actSetRingParameters
  repeat' split
  · refine ringLevel_keeps ?_
    split <;> exact keeps_of_untouched
  all_goals exact s.keeps_refl

theorem actRingStart_keeps (p : Port) (f : List Byte) (s : State) : s.keeps (actRingStart p f s).1 := by
  refine ringLevel_keeps ?_
  split <;> exact keeps_of_untouched

end State

/-! ### Every command -/

/-- Every command keeps page totals, derived plans and post buffers. -/
theorem exec_keeps {c : Instr} {s t : State} (h : exec c s = .next t) : s.keeps t := by
  cases c with
  | request | fetch | drain | post | status | take | serviceDone | eventset | unknownTransaction =>
    cases h; exact s.transact_keeps _ _ _ _
  | openStream => cases h; exact s.takeRequest_keeps _ (State.editing_keeps State.judgeOpen_within)
  | alter => cases h; exact s.takeRequest_keeps _ (State.editing_keeps State.judgeAlter_within)
  | close => cases h; exact s.takeRequest_keeps _ (State.editing_keeps State.judgeClose_within)
  | subscribe => cases h; exact s.takeRequest_keeps _ (State.editing_keeps State.judgeSubscribe_within)
  | unsubscribe => cases h; exact s.takeRequest_keeps _ (State.editing_keeps State.judgeUnsubscribe_within)
  | handover => cases h; exact s.takeRequest_keeps _ (State.editing_keeps State.judgeHandover_within)
  | streamQuery => cases h; exact s.takeRequest_keeps _ State.actStreamQuery_keeps
  | occupancyQuery => cases h; exact s.takeRequest_keeps _ fun _ _ u => u.keeps_refl
  | nodeQuery => cases h; exact s.takeRequest_keeps _ State.actNodeQuery_keeps
  | flush => cases h; exact s.takeRequest_keeps _ State.actFlush_keeps
  | attach => cases h; exact s.takeRequest_keeps _ State.actAttach_keeps
  | detach => cases h; exact s.takeRequest_keeps _ State.actDetach_keeps
  | setQuota => cases h; exact s.takeRequest_keeps _ State.actSetQuota_keeps_derived
  | ringStart => cases h; exact s.takeRequest_keeps _ State.actRingStart_keeps
  | ringStop => cases h; exact s.takeRequest_keeps _ State.actRingStop_keeps
  | ringRestart => cases h; exact s.takeRequest_keeps _ State.actRingRestart_keeps
  | setRingParameters => cases h; exact s.takeRequest_keeps _ State.actSetRingParameters_keeps
  | deviceReset straps =>
    cases h
    exact s.takeRequest_keeps _ fun p f u => State.ringLevel_keeps State.keeps_of_reset
  | portEntry =>
    simp only [exec, execPortEntry] at h
    split at h <;> cases h
    · exact s.internalEdit_keeps (portEntryChange_shrinks _)
    all_goals exact s.keeps_refl
  | nodeEntryLost =>
    simp only [exec, execNodeEntryLost] at h
    split at h <;> cases h
    · exact s.internalEdit_keeps (lostChange_shrinks _)
    all_goals exact s.keeps_refl
  | nodeEntryNodeChanged =>
    simp only [exec, execNodeEntryNodeChanged] at h
    split at h <;> cases h
    · exact s.internalEdit_keeps (changedChange_shrinks _ _)
    all_goals exact s.keeps_refl
  | gatherCounterExpiry => cases h; split <;> exact State.keeps_of_untouched
  | freeze =>
    cases h
    split
    · next due =>
      simp only [Bool.and_eq_true] at due
      exact s.grantFreeze_keeps (State.not_inFlight_of_freezeDue due.1.1)
    · exact s.keeps_refl
  | reconciliation =>
    cases h
    repeat' split
    · exact s.reconcile_keeps_derived _
    all_goals exact s.keeps_refl
  | hubCycle =>
    cases h
    split
    · exact s.sendCycle_keeps_derived
    · exact s.keeps_refl
  | quietCyclesEnd =>
    cases h
    split
    · exact s.endQuiet_keeps_derived
    · exact s.keeps_refl
  | returnEvaluation cell arrival =>
    cases h
    repeat' split
    · exact s.keeps_refl
    · refine State.keeps.trans ?_ (State.evaluate_keeps _ _ _ _ _)
      unfold State.follow
      split <;> exact State.keeps_of_untouched
    · exact s.keeps_refl
  | returnWindowExpiry =>
    cases h
    split
    · exact s.keeps_refl
    · exact s.evaluate_keeps _ _ _ _
  | beaconReceived octets =>
    cases h
    repeat' split
    · exact s.keeps_refl
    · exact s.evaluate_keeps _ _ _ _
    · exact s.keeps_refl
  | leaseExpiry p =>
    cases h
    exact (State.keeps_of_untouched (t := s.modPort p HostPort.expire)).trans (State.grantLapse_keeps _ p)
  | lapse p => cases h; exact s.grantLapse_keeps p
  | powerOnReset | pinReset => cases h; exact State.keeps_of_reset
  | nresetRelease => cases h; exact State.keeps_of_untouched

/-- Every step keeps page totals, derived plans and post buffers. -/
theorem step_keeps {s t : State} (h : step s = .next t) : s.keeps t := by
  unfold step at h
  split at h
  · cases h; exact s.takeUnknown_keeps
  · next c rest _ => exact (State.keeps_of_untouched (t := { s with pending := rest })).trans (exec_keeps h)

/-- Settles O5: no command raises a page total above 224. -/
theorem pageTotalsStayWithin : Obligations.PageTotalsStayWithin := fun _ _ hs h => (step_keeps h).pages hs

/-- Settles O6: plans follow their views, and post buffers the payload sizes in force. -/
theorem plansStayDerived : Obligations.PlansStayDerived := fun _ _ h => ⟨(step_keeps h).plans, (step_keeps h).posts⟩

end Sys2Proof.Machine
end

section
/-! SUPPORT. What arrives at a return: its class, and what the Control Channel hears in it (R96, R97, R115, R190). -/

namespace Sys2Proof.Machine

set_option Elab.async false

/-! ### Marks in the window of a cycle -/

section window
variable {g : Ring} {r : CycleRecord} {cell : Nat}

theorem Ring.hearsAtLatency.hears (h : g.hearsAtLatency r cell) : g.hears r cell :=
  ⟨h.1, .inr ⟨_, h.2, by omega, by omega⟩⟩

theorem Ring.hearsAtLatency.not_drifts (h : g.hearsAtLatency r cell) : g.drifts (cell - r.start) = false := by
  unfold drifts
  rw [h.2]
  simp only [Bool.not_eq_false', decide_eq_true_eq]
  omega

theorem Ring.hears.accepts (h : g.hears r cell) : g.accepts (cell - r.start) = true := by
  obtain ⟨-, ⟨hl, hd⟩ | ⟨l, hl, hlo, hhi⟩⟩ := h
  · unfold Ring.accepts; rw [hl]; exact decide_eq_true hd
  · unfold Ring.accepts; rw [hl]; exact decide_eq_true ⟨hlo, hhi⟩

end window

/-! ### Classes of returns -/

section classes
variable {g : Ring} {r : CycleRecord} {octets : List Byte}

theorem goodReturnOf.hopOf (h : goodReturnOf r octets) : hopOf r octets = some (numAt octets 5) := by
  obtain ⟨hheader, -, hhub, hcount⟩ := h
  simp [Machine.hopOf, hheader, hhub, hcount]

theorem goodReturnOf.classify (h : goodReturnOf r octets) : classify r octets = .good octets := by
  have hop := h.hopOf
  obtain ⟨-, hpayload, hhub, -⟩ := h
  simp [Machine.classify, goodBeacon, hhub, hop, hpayload]

theorem goodReturnOf.not_late (h : goodReturnOf r octets) : g.late r octets = false :=
  Bool.eq_false_iff.mpr fun late => (Ring.late_iff.mp late).2.2.1 h.2.2.2

/-- A damaged return has a hop count when its header check and its count are those of the cycle (R99). -/
theorem Ring.damages.hopOf (h : g.damages r octets) :
    hopOf r octets = if headerGood octets = true ∧ countOf octets = r.count then some (numAt octets 5) else none := by
  obtain ⟨-, hub⟩ := h
  unfold Machine.hopOf
  cases hheader : headerGood octets with
  | false => simp
  | true => simp [(hub hheader).1]

theorem Ring.damages.classify (h : g.damages r octets) : classify r octets = .damaged octets := by
  have hop := h.hopOf
  obtain ⟨bad, hub⟩ := h
  have beacon : goodBeacon octets = false :=
    Bool.eq_false_iff.mpr fun b => by
      obtain ⟨hheader, hb⟩ := goodBeacon_iff.mp b
      exact Bool.false_ne_true ((hub hheader).1.symm.trans hb)
  have ungood : ((Machine.hopOf r octets).isSome && payloadGood octets) = false := by
    rw [hop]
    split
    · next hc =>
      refine Bool.eq_false_iff.mpr fun hp => bad ⟨hc.1, by simpa using hp, (hub hc.1).1, hc.2⟩
    · rfl
  simp [Machine.classify, beacon, ungood]

theorem Ring.damages.not_late (h : g.damages r octets) : g.late r octets = false :=
  Bool.eq_false_iff.mpr fun late => by
    obtain ⟨hheader, -, hcount, hmem⟩ := Ring.late_iff.mp late
    exact (h.2 hheader).2 hcount hmem

end classes

/-! ### The control field of a return -/

theorem octetAt_controlOf (octets : List Byte) {n : Nat} (h : n < 16) :
    octetAt (controlOf octets) n = octetAt octets (7 + n) := by
  simp [octetAt, controlOf, List.getD_eq_getElem?_getD, h]

theorem heldOf_eq_some {b : Byte} {held : Option Epoch} : heldOf b.toNat = some held ↔ b = heldOctet held := by
  constructor
  · intro h
    unfold heldOf at h
    split at h
    · next hb => cases h; exact BitVec.eq_of_toNat_eq hb
    · split at h
      · next hb =>
        cases h
        refine BitVec.eq_of_toNat_eq ?_
        simp only [heldOctet, epochOctet, BitVec.toNat_setWidth, BitVec.toNat_ofNat]
        omega
      · cases h
  · rintro rfl
    cases held with
    | none => rfl
    | some e => revert e; decide

section field
variable {octets : List Byte} {a : Attempt}

/-- What a field says in answer to an IDENTIFY (R115, R190). -/
theorem hearField_identify {p : Pos} {i : Identity} {held : Option Epoch} :
    hearField (.identify p) a.sequence (controlOf octets) = .identity i held ↔ saysIdentity octets a p i held := by
  unfold hearField saysIdentity identityOf numAt
  simp (disch := decide) only [octetAt_controlOf, Nat.reduceAdd]
  constructor
  · intro h
    split at h
    · cases h
    · next hseq =>
      split at h
      · next held' hheld =>
        split at h
        · next hc =>
          obtain ⟨hkind, hpos, hlo, hhi⟩ := hc
          cases h
          exact ⟨hkind, hpos, not_not.mp hseq, rfl, rfl, rfl, rfl, hlo, hhi, heldOf_eq_some.mp hheld⟩
        · cases h
      · cases h
  · rintro ⟨hkind, hpos, hseq, hcls, hrev, hser, hcap, hlo, hhi, hheld⟩
    rw [if_neg (not_not.mpr hseq), heldOf_eq_some.mpr hheld]
    dsimp only
    rw [← hcap, if_pos ⟨hkind, hpos, hlo, hhi⟩]
    obtain ⟨cls, rev, ser, cap⟩ := i
    dsimp only at hcls hrev hser hcap
    rw [hcls, hrev, hser, hcap]

/-- What a field says in answer to a TAPLOAD (R115, R190). -/
theorem hearField_tapload {p : Pos} {e : Epoch} {part parts : Nat} {taps : List Tap} :
    (hearField (.tapload p e part parts taps) a.sequence (controlOf octets) = .ack ↔
      saysReply octets a 0x21 p e ∧ numAt octets 11 = part) ∧
    (hearField (.tapload p e part parts taps) a.sequence (controlOf octets) = .nak ↔
      saysReply octets a 0x23 p e ∧ numAt octets 11 = part) := by
  unfold hearField saysReply numAt
  simp (disch := decide) only [octetAt_controlOf, Nat.reduceAdd]
  constructor <;> split_ifs <;> simp_all

/-- What a field says in answer to a KEEP (R115, R190). -/
theorem hearField_keep {p : Pos} {e : Epoch} :
    hearField (.keep p e) a.sequence (controlOf octets) = .ack ↔ saysReply octets a 0x22 p e := by
  unfold hearField saysReply numAt
  simp (disch := decide) only [octetAt_controlOf, Nat.reduceAdd]
  split_ifs <;> simp_all

/-- A field that does not answer the message is a failed attempt (R115). -/
theorem hearField_of_not_answered {m : Message} (h : ¬ m.answered a octets) :
    hearField m a.sequence (controlOf octets) = .failed := by
  cases m with
  | number e =>
    simp only [Message.answered] at h
    simp (disch := decide) only [hearField, numAt, octetAt_controlOf, Nat.reduceAdd]
    split
    · rfl
    · next hseq =>
      refine if_neg fun ⟨hkind, hcount⟩ => h ⟨hkind, not_not.mp hseq, fun h0 => hcount ?_⟩
      rw [h0]; rfl
  | identify p =>
    cases hh : hearField (.identify p) a.sequence (controlOf octets) with
    | failed => rfl
    | identity i held => exact absurd ⟨i, held, hearField_identify.mp hh⟩ h
    | number | ack | nak =>
      simp only [hearField] at hh
      repeat' split at hh
      all_goals cases hh
  | tapload p e part parts taps =>
    cases hh : hearField (.tapload p e part parts taps) a.sequence (controlOf octets) with
    | failed => rfl
    | ack => exact absurd (by rw [Message.answered]; exact (hearField_tapload.1.mp hh).imp_left .inl) h
    | nak => exact absurd (by rw [Message.answered]; exact (hearField_tapload.2.mp hh).imp_left .inr) h
    | number | identity =>
      simp only [hearField] at hh
      repeat' split at hh
      all_goals cases hh
  | keep p e =>
    cases hh : hearField (.keep p e) a.sequence (controlOf octets) with
    | failed => rfl
    | ack => exact absurd (hearField_keep.mp hh) h
    | number | identity | nak =>
      simp only [hearField] at hh
      repeat' split at hh
      all_goals cases hh

end field

end Sys2Proof.Machine
end

section
/-! SUPPORT. A return that leaves the ring in its state, from the command that brings it to its end (R96 to R99, R104,
R116). -/

namespace Sys2Proof.Machine.State

set_option Elab.async false

/-! ### The Ring Engine at such a return -/

theorem engine_missed {s : State} {r : CycleRecord} {rest : List CycleRecord} (origin : Option (Fin 17))
    (hsent : s.ring.sent = r :: rest) (hbelow : s.ring.state = .running → s.ring.misses + 1 < s.ring.missLimit) :
    (s.released r (.miss origin)).engine r (.miss origin) =
      { s with ring := s.ring.afterMiss r rest origin } := by
  have beaconed : s.ring.beaconedAfter r (.miss origin) =
      if origin = none then s.ring.beaconed else r.count :: s.ring.beaconed := by cases origin <;> rfl
  unfold engine released Ring.afterMiss
  cases hs : s.ring.state with
  | running =>
    have below := hbelow hs
    simp only [missInRunning, Ring.markBreak, beaconed, hsent, hs, List.tail_cons]
    rw [if_neg (by omega)]
    cases origin <;> rfl
  | broken =>
    simp only [Ring.markBreak, Ring.noHeal, beaconed, hsent, hs, List.tail_cons]
    cases origin <;> rfl
  | off | quieting | numbering | identifying | halted => simp only [hsent, hs, List.tail_cons, beaconed]

/-- A good or damaged return in RUNNING that is no second shape mismatch in a row (R98, R99). -/
theorem returnInRunning_stays {s : State} {hop : Option Nat}
    (h : ∀ n, hop = some n → n = s.nodes.count.val ∨ s.ring.shape = 0) :
    s.returnInRunning hop = { s with
      ring :=
        { s.ring with
          misses := 0, breakPos := 0
          shape := s.ring.shapeAfter (hop.map fun n => decide (n ≠ s.nodes.count.val)) } } := by
  unfold returnInRunning
  cases hop with
  | none => rfl
  | some n =>
    by_cases hn : n = s.nodes.count.val
    · simp [hn, Ring.shapeAfter]
    · have first := (h n rfl).resolve_left hn
      simp [hn, Ring.shapeAfter, first]

theorem engine_damaged {s : State} {r : CycleRecord} {rest : List CycleRecord} {octets : List Byte}
    (hsent : s.ring.sent = r :: rest) (hd : s.ring.damages r octets)
    (hshape : s.ring.state = .running → headerGood octets = true → countOf octets = r.count →
      numAt octets 5 = s.nodes.count.val ∨ s.ring.shape = 0) :
    (s.released r (.damaged octets)).engine r (.damaged octets) = { s with
      ring := s.ring.afterDamaged rest
        (if headerGood octets = true ∧ countOf octets = r.count then some (decide (numAt octets 5 ≠ s.nodes.count.val))
        else none) } := by
  unfold engine Ring.afterDamaged
  cases hs : s.ring.state with
  | running =>
    have stays := returnInRunning_stays (s := s.released r (.damaged octets)) (hop := hopOf r octets) fun n hn => by
      rw [hd.hopOf] at hn
      split at hn
      · next hc => cases hn; exact hshape hs hc.1 hc.2
      · cases hn
    simp only [released, hs] at stays ⊢
    rw [stays, hsent, hd.hopOf]
    split <;> rfl
  | broken => simp only [released, hs, hsent]; rfl
  | off | quieting | numbering | identifying | halted => simp only [released, hs, hsent]; rfl

theorem engine_good {s : State} {r : CycleRecord} {rest : List CycleRecord} {octets : List Byte}
    (hsent : s.ring.sent = r :: rest) (hgood : goodReturnOf r octets)
    (hshape : s.ring.state = .running → numAt octets 5 = s.nodes.count.val ∨ s.ring.shape = 0)
    (hheal : s.ring.state = .broken → s.ring.heal + 1 < s.ring.healCount) :
    (s.released r (.good octets)).engine r (.good octets) = { s with
      ring := s.ring.afterGood rest (decide (numAt octets 5 ≠ s.nodes.count.val)) } := by
  unfold engine Ring.afterGood
  cases hs : s.ring.state with
  | running =>
    have stays := returnInRunning_stays (s := s.released r (.good octets)) (hop := hopOf r octets) fun n hn => by
      rw [hgood.hopOf] at hn; cases hn; exact hshape hs
    simp only [released, hs] at stays ⊢
    rw [stays, hsent, hgood.hopOf]
    rfl
  | broken =>
    have below := hheal hs
    have odd : (numAt octets 5 != s.nodes.count.val) = decide (numAt octets 5 ≠ s.nodes.count.val) := by
      rw [Bool.eq_iff_iff]; simp
    simp only [released, hs, hsent, goodInBroken, odd]
    rw [if_neg (by omega)]
    rfl
  | off | quieting | numbering | identifying | halted => simp only [released, hs, hsent]; rfl

/-! ### The command that brings it -/

/-- What follows the Control Channel at a return, with no DRAIN meanwhile (R152, R34, R78). -/
def concluded (s : State) (r : CycleRecord) (cls : ReturnClass) : State :=
  ((s.extract r cls []).discardRetired).advanceWork

/-- A mark in the window that is no late mark is evaluated, and L follows it first (R96). -/
theorem exec_returned {s : State} {r : CycleRecord} {rest : List CycleRecord} {octets : List Byte} {cell : Nat}
    (hsent : s.ring.sent = r :: rest) (hears : s.ring.hears r cell) (hlate : s.ring.late r octets = false)
    (drains : List (List DrainPart)) :
    exec (.returnEvaluation cell ⟨octets, drains⟩) s = .next
      ((s.follow r octets (cell - r.start)).evaluate r (classify r octets) (cell - r.start) drains) := by
  have takes : s.ring.takes r cell octets = true := Ring.takes_iff.mpr (.inr ⟨hears.1, hears.accepts, hlate⟩)
  show execReturnEvaluation cell _ s = _
  rw [execReturnEvaluation, hsent]
  simp [takes]

section brought
variable {s : State} {r : CycleRecord} {rest : List CycleRecord} {c : Instr} {g : Ring} {octets : List Byte}

theorem exec_returnsMissed (hsent : s.ring.sent = r :: rest) (h : s.returnsMissed r rest c g) :
    ∃ origin d, exec c s = .next
      ((({ s with ring := g } : State).channel r (.miss origin) d).concluded r (.miss origin)) := by
  obtain ⟨below, origin, missed, rfl⟩ := h
  obtain ⟨d, hexec⟩ := exec_missed hsent missed
  refine ⟨origin, d, hexec.trans ?_⟩
  rw [evaluate_eq, engine_missed origin hsent below]
  rfl

theorem exec_returnsDamaged (hsent : s.ring.sent = r :: rest)
    (h : s.returnsDamaged r rest (s.ring.hearsAtLatency r) octets c g) :
    ∃ d, exec c s = .next
      ((({ s with ring := g } : State).channel r (.damaged octets) d).concluded r (.damaged octets)) := by
  obtain ⟨⟨cell, hears, rfl⟩, damages, hshape, rfl⟩ := h
  refine ⟨cell - r.start, (exec_returned hsent hears.hears damages.not_late []).trans ?_⟩
  rw [follow_of_not_drifts hears.not_drifts, damages.classify, evaluate_eq, engine_damaged hsent damages hshape]
  rfl

theorem exec_returnsGood (hsent : s.ring.sent = r :: rest)
    (h : s.returnsGood r rest (s.ring.hearsAtLatency r) octets c g) :
    ∃ d, exec c s = .next
      ((({ s with ring := g } : State).channel r (.good octets) d).concluded r (.good octets)) := by
  obtain ⟨⟨cell, hears, rfl⟩, good, hshape, hheal, rfl⟩ := h
  refine ⟨cell - r.start, (exec_returned hsent hears.hears good.not_late []).trans ?_⟩
  rw [follow_of_not_drifts hears.not_drifts, good.classify, evaluate_eq, engine_good hsent good hshape hheal]
  rfl

end brought

/-! ### The Control Channel -/

/-- A return that decides no attempt leaves the Control Channel (R111, R115). -/
theorem channel_of_decidesNothing {s : State} {r : CycleRecord} (h : s.decidesNothing r) (cls : ReturnClass)
    (d : Nat) : s.channel r cls d = s := by
  unfold channel
  split
  · next x a hx ha =>
    rw [if_neg fun hc => ?_]
    simp only [Bool.and_eq_true, beq_iff_eq] at hc
    obtain h | h | h := h
    · rw [hx] at h; cases h
    · rw [h] at hc; exact Bool.false_ne_true hc.1
    · rw [ha] at h; exact h (congrArg some hc.2)
  · rfl

section heard
variable {s : State} {r : CycleRecord} {rest : List CycleRecord} {x : Exchange} {a : Attempt} {cls : ReturnClass}

theorem channel_of_failed (h : s.attempts r rest x a) (g : Ring) (d : Nat)
    (hh : hear x.message a.sequence cls = .failed) :
    ({ s with ring := g } : State).channel r cls d = ({ s with ring := g } : State).attemptFailed x := by
  obtain ⟨-, awaits, hx, ha, count⟩ := h
  simp [channel, hx, ha, awaits, count, hh]

theorem channel_of_identity (h : s.attempts r rest x a) (g : Ring) (d : Nat) {i : Identity} {held : Option Epoch}
    (hh : hear x.message a.sequence cls = .identity i held) :
    ({ s with ring := g } : State).channel r cls d = ({ s with ring := g } : State).identityHeard x i held := by
  obtain ⟨-, awaits, hx, ha, count⟩ := h
  simp [channel, hx, ha, awaits, count, hh]

theorem channel_of_ack (h : s.attempts r rest x a) (g : Ring) (d : Nat)
    (hh : hear x.message a.sequence cls = .ack) :
    ({ s with ring := g } : State).channel r cls d = ({ s with ring := g } : State).ackHeard x := by
  obtain ⟨-, awaits, hx, ha, count⟩ := h
  simp [channel, hx, ha, awaits, count, hh]

theorem channel_of_nak (h : s.attempts r rest x a) (g : Ring) (d : Nat)
    (hh : hear x.message a.sequence cls = .nak) :
    ({ s with ring := g } : State).channel r cls d = ({ s with ring := g } : State).nakHeard x := by
  obtain ⟨-, awaits, hx, ha, count⟩ := h
  simp [channel, hx, ha, awaits, count, hh]

/-- A failed attempt, whatever return brings it, leaves the exchange to its user (R115, R116). -/
theorem exec_failsAttempt {c : Instr} {g : Ring} (h : s.attempts r rest x a)
    (hf : s.failsAttempt r rest x a (s.ring.hearsAtLatency r) c g) :
    ∃ cls, exec c s = .next ((({ s with ring := g } : State).attemptFailed x).concluded r cls) := by
  obtain missed | ⟨octets, damaged⟩ | ⟨octets, good, unanswered⟩ := hf
  · obtain ⟨origin, d, hexec⟩ := exec_returnsMissed h.1 missed
    exact ⟨_, by rw [hexec, channel_of_failed h g d rfl]⟩
  · obtain ⟨d, hexec⟩ := exec_returnsDamaged h.1 damaged
    exact ⟨_, by rw [hexec, channel_of_failed h g d rfl]⟩
  · obtain ⟨d, hexec⟩ := exec_returnsGood h.1 good
    have failed : hear x.message a.sequence (.good octets) = .failed := hearField_of_not_answered unanswered
    exact ⟨.good octets, by rw [hexec, channel_of_failed h g d failed]⟩

end heard

section stays
variable {s : State} {r : CycleRecord} {rest : List CycleRecord} {heard : Nat → Prop} {c : Instr} {g : Ring}

/-- A good return that leaves the ring in its state leaves it with one cycle less to await. -/
theorem returnsGood_ring {octets : List Byte} (h : s.returnsGood r rest heard octets c g) :
    g.sent = rest ∧ g.state = s.ring.state := by
  obtain ⟨-, -, -, -, rfl⟩ := h
  unfold Ring.afterGood
  split <;> simp_all

/-- A failed attempt that leaves the ring in its state leaves it with one cycle less to await. -/
theorem failsAttempt_ring {x : Exchange} {a : Attempt} (h : s.failsAttempt r rest x a heard c g) :
    g.sent = rest ∧ g.state = s.ring.state := by
  obtain ⟨-, origin, -, rfl⟩ | ⟨octets, -, -, -, rfl⟩ | ⟨octets, good, -⟩ := h
  · unfold Ring.afterMiss; dsimp only; split <;> simp_all
  · unfold Ring.afterDamaged; split <;> simp_all
  · exact returnsGood_ring good

end stays

/-! ### The end of a return -/

section ends
variable {s u : State} {r : CycleRecord} {rest : List CycleRecord}

/-- With no port listed for the cycle's page, a return makes no record and no gap (R152). -/
theorem concluded_of_nothingListed (hplan : u.planFor r.epoch = s.planFor r.epoch) (hq : s.nothingListed r)
    (cls : ReturnClass) : u.concluded r cls = u.discardRetired.advanceWork := by
  have unheard : u.extract r cls [] = u := by
    unfold extract
    rw [hplan]
    split
    · rfl
    · next plan lines hp =>
      have none : deliveriesOf plan lines r.count = [] := by
        unfold deliveriesOf
        rw [List.flatMap_eq_nil_iff]
        intro pl hpl
        rw [hq plan lines hp pl hpl, List.map_nil]
      rw [none, handle_nil]
      rfl
  rw [concluded, unheard]

/-- The retired plan discarded or kept, told by the state before the return (R34, R151). -/
theorem retiresAfter_discarded (hretired : u.plans.retired = s.plans.retired)
    (hdelivery : u.mover.retiredDelivery = s.mover.retiredDelivery)
    (hsent : u.ring.sent.map (·.epoch) = rest.map (·.epoch)) : s.retiresAfter u.discardRetired rest := by
  have retires := discardRetired_retires hsent
  unfold retiresAfter at retires ⊢
  rw [hretired, hdelivery] at retires
  exact retires

/-- The retired plan at the end of a return, told by the state before it (R34, R151). -/
theorem retiresAfter_ends (hretired : u.plans.retired = s.plans.retired)
    (hdelivery : u.mover.retiredDelivery = s.mover.retiredDelivery)
    (hsent : u.ring.sent.map (·.epoch) = rest.map (·.epoch)) :
    s.retiresAfter u.discardRetired.advanceWork rest :=
  retiresAfter_discarded hretired hdelivery hsent

/-- The controller at the end of a return, told by the state before it and what the return made of its work list and
its claim (R71, R78, R79; log 11). -/
theorem goesOn_ends {work : List WorkItem} {claim : Bool}
    (distributing : s.turnover.state = .distributing → u.turnover = { s.turnover with work := work })
    (otherwise : s.turnover.state ≠ .distributing →
      u.turnover = { s.turnover with claim := s.turnover.claim || claim }) :
    s.goesOn u.discardRetired.advanceWork work claim := by
  obtain ⟨goes, stays⟩ := u.discardRetired.advanceWork_goesOn
  rw [discardRetired_turnover] at goes stays
  refine ⟨fun h => ?_, fun h => ?_⟩
  · rw [distributing h] at goes
    exact goes h
  · rw [otherwise h, Bool.or_false] at stays
    exact stays h

end ends

end Sys2Proof.Machine.State
end

section
/-! SUPPORT. How an IDENTIFY of identification concludes (R98, R134 to R136). -/

namespace Sys2Proof.Machine

set_option Elab.async false

namespace State

/-! ### Attempts that failed (R116) -/

section failed
variable {s : State} {x : Exchange} {p : Pos}

theorem attemptFailed_again (hp : x.message.position = some p) (h : x.failed + 1 ≤ x.limit) :
    s.attemptFailed x = s.retryExchange { x with failed := x.failed + 1 } := by
  simp [attemptFailed, hp, h]

theorem attemptFailed_spent (hp : x.message.position = some p) (h : x.limit < x.failed + 1) :
    s.attemptFailed x = s.closeExchange.giveUp x.user p := by
  simp [attemptFailed, hp, Nat.not_le.mpr h]

end failed

/-! ### The next position (R134, R136) -/

/-- A node's entry changes out of RUNNING with no claim and no notice (R71, R129). -/
theorem updateNode_of_not_running {s : State} (h : s.running = false) (p : Pos) (f : NodeEntry → NodeEntry) :
    s.updateNode p f =
      { s with nodes := { s.nodes with entries := s.nodes.entries.set p (f (s.node p)) } } := by
  simp [updateNode, h]

section next
variable {s : State} {p : Pos}

theorem identifyNext_asks {q : Pos} (hq : q.val = p.val + 1) (h : q.val < s.nodes.count.val) :
    s.identifyNext p = { s with nodes := { s.nodes with procedure := .identifying q } } := by
  have next : (⟨p.val + 1, by have := s.nodes.count.isLt; omega⟩ : Pos) = q := Fin.ext hq.symm
  rw [identifyNext, dif_pos (hq ▸ h), next]

theorem identifyNext_reconciles (h : s.nodes.count.val ≤ p.val + 1) (hr : s.nodes.retained ≠ none) :
    s.identifyNext p = { s with nodes := { s.nodes with procedure := .reconciling } } := by
  rw [identifyNext, dif_neg (Nat.not_lt.mpr h), if_pos (Option.isSome_iff_ne_none.mpr hr)]

theorem identifyNext_enters (h : s.nodes.count.val ≤ p.val + 1) (hr : s.nodes.retained = none) :
    s.identifyNext p =
      ({ s with nodes := { s.nodes with procedure := .idle } } : State).enterRing .running .numbered := by
  rw [identifyNext, dif_neg (Nat.not_lt.mpr h), hr]; rfl

end next

/-- The entry into RUNNING (R71, R102, R105). -/
theorem enterRing_running (s : State) (reason : RingReason) :
    s.enterRing .running reason = { s with
      ring := { s.ring with state := .running, misses := 0, shape := 0, breakPos := 0 }
      ports := s.ports.map fun h => (h.post (.ringState .running 0 reason)).raise .ringChange
      turnover := { s.turnover with claim := s.turnover.claim || decide (s.turnover.state = .waiting) } } := by
  have waits : (RingState.running == .running && s.turnover.state == .waiting) =
      decide (s.turnover.state = .waiting) := by
    cases s.turnover.state <;> rfl
  unfold enterRing
  dsimp only
  rw [waits]
  rfl

/-- The exchange with a position concluded, with the entry it leaves, after the Ring Engine's part `g` of the
return (R116, R135). -/
def entryConcluded (s : State) (g : Ring) (p : Pos) (u : NodeEntry) : State :=
  { s with
    ring := g
    control := { s.control with exchange := none, attempt := none }
    nodes := { s.nodes with entries := s.nodes.entries.set p u } }

section identification
variable {s : State} {r : CycleRecord} {rest : List CycleRecord} {x : Exchange} {a : Attempt} {p : Pos} {c : Instr}
  {g : Ring} {octets : List Byte}

/-- A matching IDENTITY, or an attempt failed with the attempts spent, concludes the position's entry and has the
next one asked (R135, R136). -/
theorem exec_identificationConcludes {i : Identity} {held : Option Epoch} {u : NodeEntry}
    (hstate : s.ring.state = .identifying) (ha : s.attempts r rest x a) (huser : x.user = .identification)
    (hm : x.message = .identify p)
    (h : s.returnsGood r rest (s.ring.hearsAtLatency r) octets c g ∧ saysIdentity octets a p i held ∧
        u = { state := if held = some s.turnover.epoch then .ready else .stale
              identity := some i, held := held, failures := 0 } ∨
      s.failsAttempt r rest x a (s.ring.hearsAtLatency r) c g ∧ x.limit < x.failed + 1 ∧
        u = { s.node p with state := .lost }) :
    ∃ cls, exec c s = .next (((s.entryConcluded g p u).identifyNext p).concluded r cls) ∧
      g.sent = rest ∧ g.state = .identifying := by
  have position : x.message.position = some p := by rw [hm]; rfl
  have closed (hg : g.state = .identifying) (f : NodeEntry → NodeEntry) :
      (({ s with ring := g } : State).closeExchange.updateNode p f) = s.entryConcluded g p (f (s.node p)) :=
    updateNode_of_not_running (by simp [running, closeExchange, hg]) _ _
  obtain ⟨good, reply, rfl⟩ | ⟨fails, spent, rfl⟩ := h
  · obtain ⟨d, hexec⟩ := exec_returnsGood ha.1 good
    obtain ⟨sent, state⟩ := returnsGood_ring good
    have answers : hear x.message a.sequence (.good octets) = .identity i held := by
      rw [hm]; exact hearField_identify.mpr reply
    refine ⟨.good octets, ?_, sent, state.trans hstate⟩
    rw [hexec, channel_of_identity ha _ d answers, identityHeard, huser, position]
    exact congrArg (fun v : State => Host.Outcome.next ((v.identifyNext p).concluded r (.good octets))) 
      (closed (state.trans hstate) _)
  · obtain ⟨cls, hexec⟩ := exec_failsAttempt ha fails
    obtain ⟨sent, state⟩ := failsAttempt_ring fails
    refine ⟨cls, ?_, sent, state.trans hstate⟩
    rw [hexec, attemptFailed_spent position spent, huser]
    exact congrArg (fun v : State => Host.Outcome.next ((v.identifyNext p).concluded r cls))
      (closed (state.trans hstate) _)

end identification

/-- With no turnover in flight a return ends with the retired plan (R34, R78). -/
theorem concluded_of_not_inFlight {s u : State} {r : CycleRecord} (hflight : u.turnover.inFlight = false)
    (hplan : u.planFor r.epoch = s.planFor r.epoch) (hq : s.nothingListed r) (cls : ReturnClass) :
    u.concluded r cls = u.discardRetired := by
  rw [concluded_of_nothingListed hplan hq, advanceWork_of_not_inFlight (s := u.discardRetired) hflight]

end State

/-- Settles O54: the entry concluded, then the next position, the reconciliation claim or the entry into RUNNING. -/
theorem identificationConcludes : Obligations.IdentificationConcludes := by
  intro s r rest x a p hstate hproc ha hq huser hm hflight left c g
  have position : x.message.position = some p := by rw [hm]; rfl
  refine ⟨?_, ?_⟩
  · intro fails again
    obtain ⟨cls, hexec⟩ := State.exec_failsAttempt ha fails
    obtain ⟨sent, -⟩ := State.failsAttempt_ring fails
    rw [State.attemptFailed_again position again, State.concluded_of_not_inFlight (s := s) ?_ ?_ hq] at hexec
    · refine ⟨_, hexec, rfl, ?_, State.retiresAfter_discarded rfl rfl (congrArg _ sent)⟩
      rw [Bool.or_false]
      rfl
    · exact hflight
    · rfl
  · intro octets i held u hu nodes
    obtain ⟨cls, hexec, sent, -⟩ := State.exec_identificationConcludes hstate ha huser hm hu
    refine ⟨_, hexec, fun q hq' hlt => ?_, fun hlast hkept => ?_, fun hlast hnone => ?_⟩
    · rw [State.identifyNext_asks (s := s.entryConcluded g p u) hq' hlt,
        State.concluded_of_not_inFlight (s := s) ?_ ?_ hq]
      · refine ⟨⟨?_, State.retiresAfter_discarded rfl rfl (congrArg _ sent)⟩, rfl⟩
        rw [Bool.or_false]
        rfl
      · exact hflight
      · rfl
    · rw [State.identifyNext_reconciles (s := s.entryConcluded g p u) hlast hkept,
        State.concluded_of_not_inFlight (s := s) ?_ ?_ hq]
      · refine ⟨⟨?_, State.retiresAfter_discarded rfl rfl (congrArg _ sent)⟩, rfl⟩
        rw [Bool.or_false]
        rfl
      · exact hflight
      · rfl
    · rw [State.identifyNext_enters (s := s.entryConcluded g p u) hlast hnone, State.enterRing_running,
        State.concluded_of_not_inFlight (s := s) ?_ ?_ hq]
      · exact ⟨⟨rfl, State.retiresAfter_discarded rfl rfl (congrArg _ sent)⟩, fun q => Table.get_map _ _ _⟩
      · exact hflight
      · rfl

end Sys2Proof.Machine
end

section
/-! SUPPORT. How an IDENTIFY of a verification round concludes (R71, R104, R141, R142). -/

namespace Sys2Proof.Machine

set_option Elab.async false

/-- The round after its first position (R141). -/
theorem Procedure.verifyNext_cons (p : Pos) (l : List Pos) :
    (Procedure.verifying (p :: l)).verifyNext = if l = [] then .idle else .verifying l := by
  cases l <;> rfl

theorem Procedure.left_verifyNext (p : Pos) (l : List Pos) : (Procedure.verifying (p :: l)).verifyNext.left = l := by
  cases l <;> rfl

/-- A serial other than the one stored (R141). -/
theorem NodeEntry.serialIs_eq_false {e : NodeEntry} {x : BitVec 32} :
    e.serialIs x = false ↔ ∀ j, e.identity = some j → j.serial ≠ x := by
  unfold serialIs
  cases e.identity <;> simp

theorem NodeEntry.serialIs_eq_true {e : NodeEntry} {x : BitVec 32} :
    e.serialIs x = true ↔ ∃ j, e.identity = some j ∧ j.serial = x := by
  unfold serialIs
  cases e.identity <;> simp

namespace State

/-- A node's entry changed in RUNNING: told to every port when its state changes, and claiming the freeze of a WAITING
controller when the node held the epoch guard (R71, R129). -/
theorem changeNode_of_running {s : State} (hrun : s.running = true) (p : Pos) (f : NodeEntry → NodeEntry)
    (cause : NodeCause) :
    let old := s.node p
    let u := f old
    s.changeNode p f cause = { s with
      ports := if u.state = old.state then s.ports else
        s.ports.map fun h => (h.post (.nodeState p u.state u.held u.failures cause)).raise .ringChange
      nodes := { s.nodes with entries := s.nodes.entries.set p u }
      turnover :=
        { s.turnover with
          claim := s.turnover.claim || decide (s.turnover.state = .waiting ∧ old.state = .stale ∧
            old.held = some (s.turnover.epoch + 1) ∧ (u.state ≠ .stale ∨ u.held ≠ old.held)) } } := by
  intro old u
  have claim : (s.running && s.turnover.state == .waiting && old.guards s.turnover.epoch &&
      (old.state != u.state || old.held != u.held)) =
        decide (s.turnover.state = .waiting ∧ old.state = .stale ∧
          old.held = some (s.turnover.epoch + 1) ∧ (u.state ≠ .stale ∨ u.held ≠ old.held)) := by
    rw [hrun, Bool.eq_iff_iff]
    simp only [NodeEntry.guards, Bool.true_and, Bool.and_eq_true, Bool.or_eq_true, beq_iff_eq, bne_iff_ne, ne_eq,
      decide_eq_true_iff, and_assoc]
    refine and_congr_right fun _ => and_congr_right fun stale => and_congr_right fun _ => ?_
    rw [stale, eq_comm, @eq_comm _ old.held]
  have told : (if (s.running && old.state != u.state) = true then
        s.ports.map fun h => h.postNode (.nodeState p u.state u.held u.failures cause)
      else s.ports) = if u.state = old.state then s.ports else
        s.ports.map fun h => (h.post (.nodeState p u.state u.held u.failures cause)).raise .ringChange := by
    rw [hrun]
    by_cases h : u.state = old.state
    · simp [h]
    · simp only [Bool.true_and, bne_iff_ne, ne_eq, if_pos (Ne.symm h), if_neg h]
      rfl
  unfold changeNode updateNode
  dsimp only
  rw [← claim, ← told]

section verification
variable {s : State} {r : CycleRecord} {rest : List CycleRecord} {x : Exchange} {a : Attempt} {p : Pos} {c : Instr}
  {g : Ring} {octets : List Byte} {i : Identity} {held : Option Epoch}

/-- A matching IDENTITY with the serial stored, or an attempt failed with the attempts spent, changes the position's
entry and has the round go on (R141). -/
theorem exec_verificationConcludes {u : NodeEntry} (ha : s.attempts r rest x a) (huser : x.user = .verification)
    (hm : x.message = .identify p)
    (h : s.returnsGood r rest (s.ring.hearsAtLatency r) octets c g ∧ saysIdentity octets a p i held ∧
        (∃ j, (s.node p).identity = some j ∧ j.serial = i.serial) ∧
        u = (if held = some s.turnover.epoch then { s.node p with state := .ready, held := held, failures := 0 }
          else { s.node p with state := .stale, held := held }) ∨
      s.failsAttempt r rest x a (s.ring.hearsAtLatency r) c g ∧ x.limit < x.failed + 1 ∧
        u = { s.node p with state := .stale }) :
    ∃ cls f, exec c s = .next
        (((({ s with ring := g } : State).closeExchange.changeNode p f .verification).verifyNext).concluded r cls) ∧
      f (s.node p) = u ∧ g.sent = rest ∧ g.state = s.ring.state := by
  have position : x.message.position = some p := by rw [hm]; rfl
  obtain ⟨good, reply, same, rfl⟩ | ⟨fails, spent, rfl⟩ := h
  · obtain ⟨d, hexec⟩ := exec_returnsGood ha.1 good
    have answers : hear x.message a.sequence (.good octets) = .identity i held := by
      rw [hm]; exact hearField_identify.mpr reply
    refine ⟨.good octets, fun e => e.verified held s.turnover.epoch, ?_, rfl, returnsGood_ring good⟩
    rw [hexec, channel_of_identity ha _ d answers, identityHeard, huser, position]
    dsimp only
    rw [verified]
    exact congrArg (fun v : State => Host.Outcome.next (v.concluded r _)) (if_pos (NodeEntry.serialIs_eq_true.mpr same))
  · obtain ⟨cls, hexec⟩ := exec_failsAttempt ha fails
    refine ⟨cls, NodeEntry.toStale, ?_, rfl, failsAttempt_ring fails⟩
    rw [hexec, attemptFailed_spent position spent, huser]
    rfl

/-- A matching IDENTITY with another serial halts the ring (R141). -/
theorem exec_verificationHalts (ha : s.attempts r rest x a) (huser : x.user = .verification)
    (hm : x.message = .identify p) (good : s.returnsGood r rest (s.ring.hearsAtLatency r) octets c g)
    (reply : saysIdentity octets a p i held)
    (other : ∀ j, (s.node p).identity = some j → j.serial ≠ i.serial) :
    exec c s = .next
      ((({ s with ring := g } : State).closeExchange.verifyNext.halt .shape).concluded r (.good octets)) := by
  have position : x.message.position = some p := by rw [hm]; rfl
  obtain ⟨d, hexec⟩ := exec_returnsGood ha.1 good
  have answers : hear x.message a.sequence (.good octets) = .identity i held := by
    rw [hm]; exact hearField_identify.mpr reply
  rw [hexec, channel_of_identity ha _ d answers, identityHeard, huser, position]
  dsimp only
  rw [verified]
  have differs : ¬ (s.node p).serialIs i.serial = true := by rw [NodeEntry.serialIs_eq_false.mpr other]; nofun
  exact congrArg (fun v : State => Host.Outcome.next (v.concluded r _)) (if_neg differs)

end verification

/-- The entry into HALTED (R102, R105). -/
theorem enterRing_halted (s : State) (reason : RingReason) :
    s.enterRing .halted reason = { s with
      ring := { s.ring with state := .halted }
      ports := s.ports.map fun h => (h.post (.ringState .halted s.ring.breakPos reason)).raise .ringDown } := by
  have claim : (s.turnover.claim || (RingState.halted == RingState.running && s.turnover.state == .waiting)) =
    s.turnover.claim := Bool.or_false _
  unfold enterRing
  dsimp only
  rw [claim]
  rfl

/-- The ring halting from RUNNING, field by field (R83, R102, R105, R117, R125, R142). -/
theorem halt_frame {s : State} (hrun : s.running = true) (hl : s.nodes.procedure.left.Nodup)
    (hx : s.exchangeOfRunning) (reason : RingReason) :
    s.halt reason = { s with
        ports := (s.halt reason).ports, streams := (s.halt reason).streams, turnover := (s.halt reason).turnover
        ring := { s.ring with state := .halted, sent := s.sentWithoutAttempt s.ring.sent }
        nodes := { s.nodes with entries := (s.halt reason).nodes.entries, procedure := .idle }
        plans := { s.plans with outgoing := (s.halt reason).plans.outgoing }
        admission :=
          { s.admission with
            batchEmpty := (s.halt reason).admission.batchEmpty
            batchTickets := (s.halt reason).admission.batchTickets }
        control :=
          { s.control with
            exchange := none, refresh := none
            attempt := if s.control.exchange = none then s.control.attempt else none } } ∧
      (s.turnover.inFlight = true → s.abandonedTo (s.halt reason)) ∧
      (s.turnover.inFlight = false → (s.halt reason).streams = s.streams ∧
        (s.halt reason).turnover = s.turnover ∧ (s.halt reason).admission = s.admission ∧
        (s.halt reason).plans.outgoing = s.plans.outgoing) ∧
      (s.halt reason).turnover.inFlight = false ∧
      let failing := s.nodes.procedure.left.filter fun p => (s.node p).state == .ready
      (∀ p, (s.halt reason).node p = if p ∈ failing then { s.node p with state := .stale } else s.node p) ∧
      ∀ q, (s.halt reason).port q =
        ((failing.foldl (fun h p => h.toldStale s .verification p) (s.port q)).post
          (.ringState .halted s.ring.breakPos reason)).raise .ringDown := by
  obtain ⟨frame, abandoned, kept⟩ := leaveRunning_frame hrun hl hx
  obtain ⟨-, nodes, ports⟩ := failVerification_frame hrun hl
  unfold halt
  rw [enterRing_halted]
  have idle : (s.leaveRunning true).turnover.inFlight = false := by
    cases h : s.turnover.inFlight with
    | true =>
      obtain ⟨turnover, -⟩ := abandoned h
      rw [turnover]; rfl
    | false =>
      obtain ⟨-, turnover, -⟩ := kept h
      rw [turnover]; exact h
  generalize s.leaveRunning true = w at *
  refine ⟨by rw [frame], abandoned, kept, idle, fun p => ?_, fun q => ?_⟩
  · rw [frame]
    exact nodes p
  · rw [frame]
    exact (Table.get_map _ _ _).trans (congrArg (fun h : HostPort =>
      (h.post (.ringState .halted s.ring.breakPos reason)).raise .ringDown) (ports q))

end State

/-- Settles O55: the entry concluded and the round gone on, or, at another serial, the ring halted. -/
theorem verificationConcludes : Obligations.VerificationConcludes := by
  intro s r rest x a p l octets i held hstate hproc ha hq huser hm old
  have position : x.message.position = some p := by rw [hm]; rfl
  refine ⟨fun c g fails again => ?_, fun c g u hu => ?_, fun c g good reply other hl => ?_⟩
  · obtain ⟨cls, hexec⟩ := State.exec_failsAttempt ha fails
    obtain ⟨sent, -⟩ := State.failsAttempt_ring fails
    rw [State.attemptFailed_again position again, State.concluded_of_nothingListed (s := s) ?_ hq] at hexec
    · exact ⟨_, hexec, State.goesOn_ends (fun _ => rfl) (fun _ => by rw [Bool.or_false]; rfl),
        State.retiresAfter_ends rfl rfl (congrArg _ sent), rfl⟩
    · rfl
  · obtain ⟨cls, f, hexec, rfl, sent, state⟩ := State.exec_verificationConcludes ha huser hm hu
    have running : ({ s with ring := g } : State).closeExchange.running = true := by
      simp [State.running, State.closeExchange, state, hstate]
    rw [State.changeNode_of_running running, State.concluded_of_nothingListed (s := s) ?_ hq] at hexec
    · refine ⟨_, hexec, ?_, State.goesOn_ends (fun waits => ?_) (fun _ => rfl),
        State.retiresAfter_ends rfl rfl (congrArg _ sent), fun q => ?_⟩
      · rw [← Procedure.verifyNext_cons p, ← hproc]
        rfl
      · have awake : ¬ s.turnover.state = .waiting := by rw [waits]; nofun
        simp [State.verifyNext, State.closeExchange, awake]
      · by_cases same : (f (s.node p)).state = old.state
        · exact (congrArg (Table.get · q) (if_pos same)).trans (if_pos same).symm
        · exact (congrArg (Table.get · q) (if_neg same)).trans ((Table.get_map _ _ _).trans (if_neg same).symm)
    · rfl
  · have hexec := State.exec_verificationHalts ha huser hm good reply other
    obtain ⟨sent, state⟩ := State.returnsGood_ring good
    obtain ⟨-, -, exchange, -⟩ := id ha
    have break0 : g.breakPos = 0 := by
      obtain ⟨-, -, -, -, rfl⟩ := good
      simp [Ring.afterGood, hstate]
    have left : s.nodes.procedure.verifyNext.left = l := by rw [hproc, Procedure.left_verifyNext]
    have running : ({ s with ring := g } : State).closeExchange.verifyNext.running = true := by
      simp [State.running, State.verifyNext, State.closeExchange, state, hstate]
    obtain ⟨frame, abandoned, kept, idle, nodes, ports⟩ :=
      State.halt_frame (s := ({ s with ring := g } : State).closeExchange.verifyNext) running
        (show (s.nodes.procedure.verifyNext.left).Nodup from left.symm ▸ hl) nofun .shape
    rw [State.sentWithoutAttempt_of_none rfl] at frame
    generalize ({ s with ring := g } : State).closeExchange.verifyNext.halt .shape = v at *
    rw [State.concluded_of_nothingListed (s := s) (by rw [frame]; rfl) hq,
      State.advanceWork_of_not_inFlight (s := v.discardRetired) idle] at hexec
    have failing : (s.nodes.procedure.verifyNext.left.filter fun p => (s.node p).state == .ready) =
        l.filter fun p => (s.node p).state == .ready := by rw [left]
    refine ⟨_, hexec, ⟨?_, abandoned, kept, ?_, fun p => ?_, fun q => ?_⟩, fun q => ?_⟩
    · unfold State.discardRetired
      rw [frame, if_neg (show ¬ s.control.exchange = none by rw [exchange]; nofun)]
      rfl
    · exact State.retiresAfter_discarded (by rw [frame]; rfl) (by rw [frame]; rfl)
        (by rw [frame]; exact congrArg _ sent)
    · rw [← failing]
      exact nodes p
    · rw [← failing, ← break0]
      intro told
      show v.port q = _
      rw [show v.discardRetired.port q = v.port q from rfl, ports q]
      rfl
    · show (v.port q).gaps = _
      rw [ports q]
      simp only [HostPort.raise_gaps, HostPort.post_gaps, HostPort.foldl_toldStale_gaps]
      rfl

end Sys2Proof.Machine
end

section
/-! SUPPORT. How an exchange of distribution concludes (R76 to R79, R116, R121). -/

namespace Sys2Proof.Machine

set_option Elab.async false

/-- The first OPEN item of a work list changed (R76). -/
theorem mapFirstOpen_append {l : List WorkItem} {w : WorkItem} (f : WorkItem → WorkItem) (m : List WorkItem)
    (hw : w.outcome = .opened) (hl : ∀ v ∈ l, v.outcome ≠ .opened) :
    mapFirstOpen f (l ++ w :: m) = l ++ f w :: m := by
  induction l with
  | nil => exact if_pos hw
  | cons v l ih =>
    obtain ⟨hv, hl⟩ := List.forall_mem_cons.mp hl
    rw [List.cons_append, mapFirstOpen, if_neg hv, ih hl, List.cons_append]

/-- A good return's answer to a TAPLOAD (R115). -/
theorem hear_tapload {x : Exchange} {a : Attempt} {octets : List Byte} {p : Pos} {e : Epoch} {part parts : Nat}
    {taps : List Tap} (hm : x.message = .tapload p e part parts taps) :
    (hear x.message a.sequence (.good octets) = .ack ↔ saysReply octets a 0x21 p e ∧ numAt octets 11 = part) ∧
      (hear x.message a.sequence (.good octets) = .nak ↔ saysReply octets a 0x23 p e ∧ numAt octets 11 = part) :=
  hm ▸ hearField_tapload (parts := parts) (taps := taps)

namespace State

/-- A return whose work on the exchange leaves the Node Table and the ports, told by the state before it; `g` is the
Ring Engine after it (R76, R78). -/
theorem ends_of_workOn {s : State} {r : CycleRecord} {rest : List CycleRecord} {g : Ring} (hsent : g.sent = rest)
    (hd : s.turnover.state = .distributing) (hq : s.nothingListed r) (cls : ReturnClass) (x' : Option Exchange)
    (work : List WorkItem) :
    let u : State := { s with
      ring := g
      control := { s.control with exchange := x', attempt := none }
      turnover := { s.turnover with work := work } }
    let t := u.concluded r cls
    (t.ports = s.ports ∧ t.nodes = s.nodes) ∧
      t = { s with
        ports := t.ports, nodes := t.nodes, ring := g, turnover := t.turnover
        control := { s.control with exchange := x', attempt := none }
        plans := { s.plans with retired := t.plans.retired }
        mover := { s.mover with retiredDelivery := t.mover.retiredDelivery } } ∧
      s.goesOn t work false ∧ s.retiresAfter t rest := by
  intro u t
  have ends : t = u.discardRetired.advanceWork := concluded_of_nothingListed (s := s) (u := u) rfl hq cls
  rw [ends]
  exact ⟨⟨rfl, rfl⟩, rfl, goesOn_ends (fun _ => rfl) (fun h => absurd hd h),
    retiresAfter_ends rfl rfl (congrArg _ hsent)⟩

section distribution
variable {s : State} {x : Exchange} {before after' : List WorkItem} {w : WorkItem} {g : Ring}

/-- The current work item changed, once it is known where it stands (R76). -/
theorem modWork_of_firstOpen (hwork : s.turnover.work = before ++ w :: after') (hw : w.outcome = .opened)
    (hb : ∀ v ∈ before, v.outcome ≠ .opened) (f : WorkItem → WorkItem) :
    s.modWork f = { s with turnover := { s.turnover with work := before ++ f w :: after' } } := by
  rw [modWork, hwork, mapFirstOpen_append f after' hw hb]

/-- A matching LOADACK or KEEPACK in distribution (R76). -/
theorem ackHeard_distribution (huser : x.user = .distribution) (hwork : s.turnover.work = before ++ w :: after')
    (hw : w.outcome = .opened) (hb : ∀ v ∈ before, v.outcome ≠ .opened) :
    ({ s with ring := g } : State).ackHeard x = { s with
      ring := g
      control := { s.control with exchange := none, attempt := none }
      turnover := { s.turnover with work := before ++ w.acked :: after' } } := by
  rw [ackHeard, huser]
  exact modWork_of_firstOpen (s := ({ s with ring := g } : State).closeExchange) hwork hw hb _

/-- A matching NAK in distribution with attempts left (R76, R116, R121). -/
theorem nakHeard_distribution {p : Pos} {plan : Plan} (hp : x.message.position = some p)
    (huser : x.user = .distribution) (hplan : s.plans.outgoing = some plan) (again : x.failed + 1 ≤ x.limit)
    (hwork : s.turnover.work = before ++ w :: after') (hw : w.outcome = .opened)
    (hb : ∀ v ∈ before, v.outcome ≠ .opened) :
    ({ s with ring := g } : State).nakHeard x = { s with
      ring := g
      control :=
        { s.control with
          exchange := some { x with
            failed := x.failed + 1
            message := .tapload p plan.epoch 1 (partCount (plan.taps.get p)) ((plan.taps.get p).take 3) }
          attempt := none }
      turnover := { s.turnover with work := before ++ { w with next := 1 } :: after' } } := by
  have part : ({ s with ring := g } : State).firstPart x p =
      .tapload p plan.epoch 1 (partCount (plan.taps.get p)) ((plan.taps.get p).take 3) := by
    unfold firstPart
    simp only [huser, hplan]
    rfl
  unfold nakHeard
  rw [hp]
  simp only [Nat.not_lt.mpr again, if_false, part, huser]
  exact modWork_of_firstOpen (s := ({ s with ring := g } : State).retryExchange _) hwork hw hb _

/-- A work item and its node given up in RUNNING (R77, R129). -/
theorem giveUp_distribution {p : Pos} (hg : g.state = .running) (hready : (s.node p).state = .ready)
    (hwork : s.turnover.work = before ++ w :: after') (hw : w.outcome = .opened)
    (hb : ∀ v ∈ before, v.outcome ≠ .opened) :
    ({ s with ring := g } : State).closeExchange.giveUp .distribution p = { s with
      ring := g
      ports := s.ports.map fun h => h.toldStale s .distribution p
      nodes := { s.nodes with entries := s.nodes.entries.modify p fun e => { e with state := .stale } }
      control := { s.control with exchange := none, attempt := none }
      turnover := { s.turnover with work := before ++ { w with outcome := .stale } :: after' } } := by
  rw [giveUp, modWork_of_firstOpen (s := ({ s with ring := g } : State).closeExchange) hwork hw hb]
  exact changeNode_toStale (s := { s with
    ring := g
    control := { s.control with exchange := none, attempt := none }
    turnover := { s.turnover with work := before ++ { w with outcome := .stale } :: after' } })
    (by simp [running, hg]) hready _

end distribution

end State

/-- Settles O52: the work item's change at each conclusion, and the work list gone on from there. -/
theorem distributionConcludes : Obligations.DistributionConcludes := by
  intro s r rest x a plan before after' w e taps hstate hd hplan ha hq huser hm hwork hw hb hready left same naks
    c g octets
  have position : x.message.position = some w.position := by
    obtain hm | hm := hm <;> rw [hm] <;> rfl
  refine ⟨fun good => ?_, fun fails again => ?_, fun failed spent => ?_⟩
  · obtain ⟨d, hexec⟩ := State.exec_returnsGood ha.1 good
    obtain ⟨sent, state⟩ := State.returnsGood_ring good
    refine ⟨fun ⟨reply, part, hm⟩ => ?_, fun ⟨reply, hm, last⟩ => ?_, fun ⟨reply, part, hm⟩ again => ?_⟩
    · have acks := (hear_tapload hm).1.mpr ⟨reply, part⟩
      rw [State.channel_of_ack ha g d acks, State.ackHeard_distribution huser hwork hw hb] at hexec
      exact ⟨_, hexec, State.ends_of_workOn sent hd hq _ none _⟩
    · have acks : hear x.message a.sequence (.good octets) = .ack := by
        rw [hm]; exact hearField_keep.mpr reply
      have acked : w.acked = { w with outcome := .acknowledged } := if_neg (Nat.not_lt.mpr last)
      rw [State.channel_of_ack ha g d acks, State.ackHeard_distribution huser hwork hw hb, acked] at hexec
      exact ⟨_, hexec, State.ends_of_workOn sent hd hq _ none _⟩
    · have nak := (hear_tapload hm).2.mpr ⟨reply, part⟩
      rw [State.channel_of_nak ha g d nak, State.nakHeard_distribution position huser hplan again hwork hw hb] at hexec
      obtain ⟨one, all, few⟩ := partCount_bounds (plan.taps.get w.position)
      obtain ⟨unmoved, ends⟩ := State.ends_of_workOn sent hd hq (.good octets) (some { x with
        failed := x.failed + 1
        message := .tapload w.position plan.epoch 1 (partCount (plan.taps.get w.position))
          ((plan.taps.get w.position).take 3) }) (before ++ { w with next := 1 } :: after')
      exact ⟨_, partCount (plan.taps.get w.position), hexec, unmoved, ends, one, all, few.symm⟩
  · obtain ⟨cls, hexec⟩ := State.exec_failsAttempt ha fails
    obtain ⟨sent, state⟩ := State.failsAttempt_ring fails
    rw [State.attemptFailed_again position again] at hexec
    have ends := State.ends_of_workOn sent hd hq cls (some { x with failed := x.failed + 1 }) s.turnover.work
    rw [hwork] at ends
    refine ⟨_, hexec, ?_⟩
    rw [show ({ s with ring := g } : State) = { s with
      ring := g, turnover := { s.turnover with work := before ++ w :: after' } } by rw [← hwork]]
    exact ends
  · have hgiven : ∃ cls, exec c s = .next
        ((({ s with ring := g } : State).closeExchange.giveUp .distribution w.position).concluded r cls) ∧
          g.sent = rest ∧ g.state = s.ring.state := by
      obtain fails | ⟨good, reply, part, hm⟩ := failed
      · obtain ⟨cls, hexec⟩ := State.exec_failsAttempt ha fails
        rw [State.attemptFailed_spent position spent, huser] at hexec
        exact ⟨cls, hexec, State.failsAttempt_ring fails⟩
      · obtain ⟨d, hexec⟩ := State.exec_returnsGood ha.1 good
        have nak := (hear_tapload hm).2.mpr ⟨reply, part⟩
        have given : ({ s with ring := g } : State).nakHeard x =
            ({ s with ring := g } : State).closeExchange.giveUp .distribution w.position := by
          rw [State.nakHeard, position, huser]
          exact if_pos spent
        rw [State.channel_of_nak ha g d nak, given] at hexec
        exact ⟨_, hexec, State.returnsGood_ring good⟩
    obtain ⟨cls, hexec, sent, state⟩ := hgiven
    rw [State.giveUp_distribution (state.trans hstate) hready hwork hw hb,
      State.concluded_of_nothingListed (s := s) ?_ hq] at hexec
    · exact ⟨_, hexec, ⟨rfl, State.goesOn_ends (fun _ => rfl) (fun h => absurd hd h),
        State.retiresAfter_ends rfl rfl (congrArg _ sent)⟩, rfl, fun q => Table.get_map _ _ _⟩
    · rfl

end Sys2Proof.Machine
end

section
/-! SUPPORT. Returns that the Control Channel takes no part in: the miss, and the good return with its record (R96, R98,
R104, R152 to R156). -/

namespace Sys2Proof.Machine

set_option Elab.async false

namespace State

/-- The mark of a cycle that a beacon concluded is not accepted for another (R96; log 32). -/
theorem exec_late {s : State} {r : CycleRecord} {rest : List CycleRecord} {octets : List Byte}
    (hsent : s.ring.sent = r :: rest) (late : s.ring.late r octets = true) (cell : Nat)
    (drains : List (List DrainPart)) : exec (.returnEvaluation cell ⟨octets, drains⟩) s = .next s := by
  have hub : goodBeacon octets = false := Bool.eq_false_iff.mpr fun beacon =>
    Bool.false_ne_true ((Ring.late_iff.mp late).2.1.symm.trans (goodBeacon_iff.mp beacon).2)
  show execReturnEvaluation cell _ s = _
  rw [execReturnEvaluation, hsent]
  simp [Ring.takes_late hub late]

/-- A miss that leaves the ring in its state leaves it with one cycle less to await. -/
theorem returnsMissed_sent {s : State} {r : CycleRecord} {rest : List CycleRecord} {c : Instr} {g : Ring}
    (h : s.returnsMissed r rest c g) : g.sent = rest := by
  obtain ⟨-, origin, -, rfl⟩ := h
  unfold Ring.afterMiss
  dsimp only
  split <;> rfl

end State

/-- Settles O47: a late mark concludes nothing; a miss counts, and reaches the gap counters. -/
theorem missCountsAndLeavesGaps : Obligations.MissCountsAndLeavesGaps := by
  intro s r rest hsent
  refine ⟨fun octets cell drains header hub other mem => ?_, fun c g hoff hn missed => ?_⟩
  · exact State.exec_late hsent (Ring.late_iff.mpr ⟨header, hub, other, mem⟩) cell drains
  · obtain ⟨origin, d, hexec⟩ := State.exec_returnsMissed hsent missed
    rw [State.channel_of_decidesNothing (s := { s with ring := g }) hn, State.concluded] at hexec
    obtain ⟨extracted, gapsAlone, gaps⟩ := ({ s with ring := g } : State).extract_miss r origin
    generalize ({ s with ring := g } : State).extract r (.miss origin) [] = e at *
    refine ⟨_, hexec, ?_, ?_, ?_, ?_, gapsAlone⟩
    · unfold State.discardRetired
      rw [extracted]
      rfl
    · rw [extracted]
      exact State.goesOn_ends (fun _ => rfl) (fun _ => by rw [Bool.or_false])
    · rw [extracted]
      exact State.retiresAfter_ends rfl rfl (congrArg _ (State.returnsMissed_sent missed))
    · exact State.leavesGaps_congr (u := { s with ring := g }) rfl (fun _ => ⟨rfl, rfl⟩) (fun _ => rfl) gaps

/-! ### The record of a slot (R152 to R156) -/

namespace HostPort

/-- A raise reaches the event unit alone (R179). -/
theorem raiseIf_frame (h : HostPort) (c : Bool) (k : EventKind) :
    h.raiseIf c k = { h with events := (h.raiseIf c k).events } := by
  unfold raiseIf raise
  split
  · split <;> rfl
  · rfl

/-- A raise at an ATTACHED port leaves its kind pending (R179). -/
theorem raiseIf_pending {h : HostPort} {c : Bool} (k : EventKind) (hc : c = true) (ha : h.attached = true) :
    ((h.raiseIf c k).events.kinds.get k.rank).pending = true := by
  unfold raiseIf raise
  rw [if_pos hc, if_pos ha]
  have raised (f : KindState) : f.raise.pending = true := by
    unfold KindState.raise
    split <;> simp_all
  simp [EventUnit.raise, raised]

/-- A record appended to a port's delivery queue, which starts the gap count of its stream anew (R155, R156). -/
def recorded (h : HostPort) (x : Record) : HostPort :=
  { h with delivery := h.delivery ++ [x], gaps := h.gaps.set x.stream 0 }

/-- A listed ATTACHED port with room takes the record, with its gap count (R155, R156, R185). -/
theorem receive_of_room {h : HostPort} {r : CycleRecord} {cls : ReturnClass} {pl : Placement} {x : Record}
    (ha : h.attached = true) (hx : recordOf r cls pl = some x) (room : occupancy h.delivery + x.size ≤ 4096) :
    let h' := h.recorded { x with gap := h.gaps.get x.stream }
    h.receive r cls pl = h'.raiseIf (decide (h.events.threshold ≤ occupancy h'.delivery)) .delivery := by
  rw [receive, if_pos ha, hx]
  exact if_pos room

end HostPort

/-- The record of a slot that carries the cycle's tag and is not VOID (R153). -/
theorem recordOf_good {r : CycleRecord} {octets : List Byte} {pl : Placement}
    (tag : slotTag (octetAt octets (24 + pl.offset)) = epochTag r.epoch)
    (filled : slotValidity (octetAt octets (24 + pl.offset)) ≠ .void) :
    recordOf r (.good octets) pl = some {
      stream := pl.stream, validity := slotValidity (octetAt octets (24 + pl.offset))
      sequence := slotSequence (octetAt octets (24 + pl.offset)), cycle := r.count, gap := 0
      payload := (octets.drop (25 + pl.offset)).take (pl.length - 1) } := by
  simp only [recordOf, if_pos tag, if_neg filled]

namespace State

section extraction
variable {s : State} {r : CycleRecord} {plan : Plan} {lines : DeliveryTable} {pl : Placement}

/-- A return of a page with one placement reaches the ports listed for its stream, once each (R152). -/
theorem extract_of_one (hplan : s.planFor r.epoch = some (plan, lines))
    (hpage : plan.layouts.get (pageOf r.count) = [pl]) (hl : (listedPorts lines pl.stream).Nodup)
    (cls : ReturnClass) :
    s.extract r cls [] = { s with ports := (s.extract r cls []).ports } ∧
      (∀ q ∈ listedPorts lines pl.stream, (s.extract r cls []).port q = (s.port q).receive r cls pl) ∧
      ∀ q ∉ listedPorts lines pl.stream, (s.extract r cls []).port q = s.port q := by
  have deliveries : deliveriesOf plan lines r.count = (listedPorts lines pl.stream).map fun p => (p, pl) := by
    rw [deliveriesOf, hpage, List.flatMap_cons, List.flatMap_nil, List.append_nil]
  have handled : s.extract r cls [] = { s with
      ports := ((listedPorts lines pl.stream).map fun p => (p, pl)).foldl
        (fun ps x => ps.modify x.1 fun h => h.receive r cls x.2) s.ports } := by
    rw [extract, hplan, ← deliveries]; exact handle_nil _ _ _ _
  have port (q : Port) : (s.extract r cls []).port q =
      ((((listedPorts lines pl.stream).map fun p => (p, pl)).filter fun x => x.1 == q).map Prod.snd).foldl
        (fun h pl => h.receive r cls pl) (s.port q) := by
    rw [handled]
    exact Table.get_foldl_modify (fun (pl : Placement) (h : HostPort) => h.receive r cls pl) _ s.ports q
  have own (q : Port) : (((listedPorts lines pl.stream).map fun p => (p, pl)).filter fun x => x.1 == q).map Prod.snd =
      if q ∈ listedPorts lines pl.stream then [pl] else [] := by
    have once : (listedPorts lines pl.stream).filter (· == q) =
        if q ∈ listedPorts lines pl.stream then [q] else [] := by
      rw [List.filter_beq, hl.count]
      split <;> rfl
    rw [List.filter_map, List.map_map]
    refine (congrArg (List.map _) once).trans ?_
    split <;> rfl
  refine ⟨by rw [handled], fun q hq => ?_, fun q hq => ?_⟩
  · rw [port q, own, if_pos hq]; rfl
  · rw [port q, own, if_neg hq]; rfl

end extraction

/-! ### L follows the mark (R96) -/

/-- A known L after a mark: followed when the mark is more than 4 bit cells off (R96). -/
def followed (s : State) (d : Nat) : State :=
  { s with
    ring := { s.ring with latency := s.ring.latency.map fun l => if l ≤ d + 4 ∧ d ≤ l + 4 then l else d } }

theorem numbers_of_decidesNothing {s : State} {r : CycleRecord} (h : s.decidesNothing r) : s.numbers r = false := by
  unfold numbers
  split
  · next x a hx ha =>
    obtain h | h | h := h
    · rw [hx] at h; cases h
    · simp [h]
    · rw [ha] at h
      have other : (a.count == r.count) = false := by simpa using h
      rw [other, Bool.and_false]
  · rfl

/-- The cycle's own return has L follow its mark, when it is no NUMBER attempt's (R96, R133). -/
theorem follow_eq_followed {s : State} {r : CycleRecord} {octets : List Byte} {n : Nat} (hop : hopOf r octets = some n)
    (hn : s.numbers r = false) (d : Nat) : s.follow r octets d = s.followed d := by
  have still (h : s.ring.latency.map (fun l => if l ≤ d + 4 ∧ d ≤ l + 4 then l else d) = s.ring.latency) :
      s.followed d = s := by unfold followed; rw [h]
  cases hl : s.ring.latency with
  | none =>
    rw [still (by rw [hl, Option.map_none])]
    exact follow_of_not_drifts (by simp [Ring.drifts, hl]) r octets
  | some l =>
    by_cases near : l ≤ d + 4 ∧ d ≤ l + 4
    · rw [still (by rw [hl, Option.map_some, if_pos near])]
      exact follow_of_not_drifts (by simp [Ring.drifts, hl, Config.driftFree, near]) r octets
    · simp [follow, followed, Ring.drifts, hl, hop, hn, Config.driftFree, near]

/-- What the Ring Engine makes of a good return, but for L, does not depend on L. -/
theorem afterGood_followed (s : State) (d : Nat) (rest : List CycleRecord) (odd : Bool) :
    (s.followed d).ring.afterGood rest odd =
      { s.ring.afterGood rest odd with latency := (s.followed d).ring.latency } := by
  unfold Ring.afterGood followed
  dsimp only
  split <;> rfl

/-- A good return in its window that decides no attempt, from the command on (R96, R97). -/
theorem exec_good_of_decidesNothing {s : State} {r : CycleRecord} {rest : List CycleRecord} {octets : List Byte}
    {cell : Nat} {g : Ring} (hsent : s.ring.sent = r :: rest) (hears : s.ring.hears r cell)
    (good : s.returnsGood r rest (fun d => d = cell) octets (.returnEvaluation cell ⟨octets, []⟩) g)
    (hn : s.decidesNothing r) :
    exec (.returnEvaluation cell ⟨octets, []⟩) s = .next
      (({ s with
        ring := { g with latency := (s.followed (cell - r.start)).ring.latency } } : State).concluded r
          (.good octets)) := by
  obtain ⟨-, good, shape, heal, rfl⟩ := good
  rw [exec_returned hsent hears good.not_late [], follow_eq_followed good.hopOf (numbers_of_decidesNothing hn),
    good.classify, evaluate_eq,
    engine_good (s := s.followed (cell - r.start)) hsent good shape heal, channel_of_decidesNothing, afterGood_followed]
  · rfl
  · exact hn

end State

/-- Settles O49: the return counted, L followed, and the record made at each port listed. -/
theorem goodReturnIsDelivered : Obligations.GoodReturnIsDelivered := by
  intro s r rest plan lines pl octets cell g q x hoff hsent hears good hn hplan hpage hl hq ha htag hfilled hx room
  have hexec := State.exec_good_of_decidesNothing hsent hears good hn
  obtain ⟨sent, -⟩ := State.returnsGood_ring good
  rw [State.concluded] at hexec
  generalize hu : ({ s with
    ring := { g with latency := (s.followed (cell - r.start)).ring.latency } } : State) = u at hexec
  have plans : u.planFor r.epoch = some (plan, lines) := by rw [← hu]; exact hplan
  have ports (p : Port) : u.port p = s.port p := by rw [← hu]; rfl
  obtain ⟨extracted, listed, unlisted⟩ := State.extract_of_one plans hpage hl (.good octets)
  generalize u.extract r (.good octets) [] = e at *
  have received : e.port q = ((s.port q).recorded x).raiseIf
      (decide ((s.port q).events.threshold ≤ occupancy ((s.port q).recorded x).delivery)) .delivery := by
    rw [listed q hq, ports q, HostPort.receive_of_room ha (recordOf_good htag hfilled)
      (by rw [hx] at room; exact room), hx]
  have delivery : (e.port q).delivery = (s.port q).delivery ++ [x] := by rw [received, HostPort.raiseIf_delivery]; rfl
  refine ⟨_, hexec, ?_, ?_, ?_, delivery, ?_, fun high => ?_, fun p hp => (unlisted p hp).trans (ports p)⟩
  · unfold State.discardRetired
    rw [extracted, ← hu]
    rfl
  · rw [extracted, ← hu]
    exact State.goesOn_ends (fun _ => rfl) (fun _ => by rw [Bool.or_false])
  · rw [extracted, ← hu]
    exact State.retiresAfter_ends rfl rfl (congrArg _ sent)
  · show e.port q = { s.port q with
      delivery := (e.port q).delivery, events := (e.port q).events, gaps := (s.port q).gaps.set pl.stream 0 }
    rw [delivery, received, HostPort.raiseIf_frame, hx]
    rfl
  · replace high : (s.port q).events.threshold ≤ occupancy (e.port q).delivery := high
    rw [delivery] at high
    show ((e.port q).events.kinds.get EventKind.delivery.rank).pending = true
    rw [received]
    exact HostPort.raiseIf_pending _ (decide_eq_true high) ha

end Sys2Proof.Machine
end

section
/-! SUPPORT. The layouts of a plan and its tap lists (R26, R27, R30, R31). -/

namespace Sys2Proof.Machine

set_option Elab.async false

/-- Placements one after another from offset `a` to offset `b` (R27). -/
def packed (a : Nat) (l : List Placement) (b : Nat) : Prop :=
  match l with
  | [] => a = b
  | pl :: l => pl.offset = a ∧ packed (a + pl.length) l b

@[simp] theorem packed_nil {a b : Nat} : packed a [] b ↔ a = b := Iff.rfl
@[simp] theorem packed_cons {a b : Nat} {pl : Placement} {l : List Placement} :
    packed a (pl :: l) b ↔ pl.offset = a ∧ packed (a + pl.length) l b := Iff.rfl

theorem packed_append {a c : Nat} {l m : List Placement} :
    packed a (l ++ m) c ↔ ∃ b, packed a l b ∧ packed b m c := by
  induction l generalizing a with
  | nil => simp
  | cons pl l ih =>
    simp only [List.cons_append, packed_cons, ih]
    exact ⟨fun ⟨h, b, hl, hm⟩ => ⟨b, ⟨h, hl⟩, hm⟩, fun ⟨b, ⟨h, hl⟩, hm⟩ => ⟨h, b, hl, hm⟩⟩

namespace packed

variable {a b : Nat} {l : List Placement}

theorem le (h : packed a l b) : a ≤ b := by
  induction l generalizing a with
  | nil => exact h.le
  | cons pl l ih => exact (Nat.le_add_right _ _).trans (ih h.2)

/-- Placements lie in the octets that they take together. -/
theorem bounds (h : packed a l b) : ∀ pl ∈ l, a ≤ pl.offset ∧ pl.offset + pl.length ≤ b := by
  induction l generalizing a with
  | nil => nofun
  | cons x l ih =>
    obtain ⟨first, rest⟩ := h
    rintro pl (_ | ⟨_, hpl⟩)
    · exact ⟨first.ge, first ▸ rest.le⟩
    · obtain ⟨low, high⟩ := ih rest pl hpl
      exact ⟨by omega, high⟩

/-- Each placement lies behind those before it. -/
theorem pairwise (h : packed a l b) : l.Pairwise fun x y => x.offset + x.length ≤ y.offset := by
  induction l generalizing a with
  | nil => exact .nil
  | cons x l ih =>
    obtain ⟨first, rest⟩ := h
    exact .cons (fun y hy => first ▸ (rest.bounds y hy).1) (ih rest)

end packed

/-! ### Layouts -/

/-- The streams present on a page of a view (R4). -/
def presentOn (v : ViewTable) (k : Page) (id : StreamId) : Bool := (v.get id).any fun d => d.present k

theorem presentOn_iff {v : ViewTable} {k : Page} {id : StreamId} :
    presentOn v k id = true ↔ ∃ d, v.get id = some d ∧ d.present k = true := by
  unfold presentOn
  cases v.get id <;> simp

section layouts
variable {v : ViewTable} {k : Page}

/-- One placement for a stream present, none for another (R26, R27). -/
theorem layoutFrom_cons (id : StreamId) (ids : List StreamId) (n : Nat) :
    layoutFrom v k (id :: ids) n =
      (if presentOn v k id then [{ stream := id, offset := n, length := shareOn k (v.get id) }] else []) ++
        layoutFrom v k ids (n + shareOn k (v.get id)) := by
  unfold presentOn
  rw [layoutFrom]
  cases v.get id with
  | none => rfl
  | some d => cases h : d.present k <;> simp [shareOn, h]

/-- A stream that is not present takes no octets (R4). -/
theorem shareOn_of_absent {id : StreamId} (h : presentOn v k id = false) : shareOn k (v.get id) = 0 := by
  unfold presentOn at h
  cases hd : v.get id with
  | none => rfl
  | some d =>
    rw [hd] at h
    simp_all [shareOn]

theorem layoutFrom_packed (ids : List StreamId) (n : Nat) :
    packed n (layoutFrom v k ids n) (n + (ids.map fun id => shareOn k (v.get id)).sum) := by
  induction ids generalizing n with
  | nil => rfl
  | cons id ids ih =>
    rw [layoutFrom_cons, List.map_cons, List.sum_cons, ← Nat.add_assoc]
    cases h : presentOn v k id with
    | true => exact ⟨rfl, ih _⟩
    | false => exact (shareOn_of_absent h).symm ▸ ih n

/-- The streams of a layout, in their order (R26). -/
theorem layoutFrom_streams (ids : List StreamId) (n : Nat) :
    (layoutFrom v k ids n).map (·.stream) = ids.filter (presentOn v k) := by
  induction ids generalizing n with
  | nil => rfl
  | cons id ids ih =>
    rw [layoutFrom_cons, List.map_append, ih, List.filter_cons]
    split <;> rfl

theorem layoutFrom_length {ids : List StreamId} {n : Nat} :
    ∀ pl ∈ layoutFrom v k ids n, pl.length = shareOn k (v.get pl.stream) := by
  induction ids generalizing n with
  | nil => nofun
  | cons id ids ih =>
    rw [layoutFrom_cons]
    intro pl hpl
    rcases List.mem_append.mp hpl with first | rest
    · split at first
      · rw [List.mem_singleton.mp first]
      · cases first
    · exact ih pl rest

theorem layoutOf_packed (v : ViewTable) (k : Page) : packed 0 (layoutOf v k) (pageTotal v k) := by
  have h := layoutFrom_packed (v := v) (k := k) allStreams 0
  rwa [Nat.zero_add] at h

theorem layoutOf_streams (v : ViewTable) (k : Page) :
    (layoutOf v k).map (·.stream) = allStreams.filter (presentOn v k) := layoutFrom_streams _ _

/-- A placement of a layout is that of a stream present (R26). -/
theorem layoutOf_placed {pl : Placement} (h : pl ∈ layoutOf v k) :
    ∃ d, v.get pl.stream = some d ∧ d.present k = true ∧ pl.length = d.payload + 1 := by
  have stream : pl.stream ∈ allStreams.filter (presentOn v k) :=
    layoutOf_streams v k ▸ List.mem_map_of_mem h
  obtain ⟨d, hd, present⟩ := presentOn_iff.mp (List.mem_filter.mp stream).2
  refine ⟨d, hd, present, (layoutFrom_length pl h).trans ?_⟩
  rw [hd, shareOn, if_pos present, Descriptor.slotLength]

/-- Each stream present has a placement (R26). -/
theorem layoutOf_of_present {id : StreamId} {d : Descriptor} (hd : v.get id = some d) (present : d.present k = true) :
    ∃ pl ∈ layoutOf v k, pl.stream = id := by
  have stream : id ∈ (layoutOf v k).map (·.stream) := by
    rw [layoutOf_streams]
    exact List.mem_filter.mpr ⟨List.mem_finRange _, presentOn_iff.mpr ⟨d, hd, present⟩⟩
  simpa using stream

/-- The streams of a layout ascend (R26). -/
theorem layoutOf_ascending (v : ViewTable) (k : Page) : (layoutOf v k).Pairwise fun a b => a.stream < b.stream := by
  have streams : ((layoutOf v k).map (·.stream)).Pairwise (· < ·) :=
    layoutOf_streams v k ▸ (List.pairwise_lt_finRange 48).filter _
  exact List.pairwise_map.mp streams

/-- The offsets of a layout ascend (R27). -/
theorem layoutOf_offsets (v : ViewTable) (k : Page) : (layoutOf v k).Pairwise fun a b => a.offset < b.offset := by
  refine (layoutOf_packed v k).pairwise.imp_of_mem fun {a b} ha _ behind => ?_
  obtain ⟨d, -, -, length⟩ := layoutOf_placed ha
  omega

@[simp] theorem compile_layouts (v : ViewTable) (e : Epoch) (k : Page) :
    (compile v e).layouts.get k = layoutOf v k := Table.get_tabulate _ _

end layouts

/-! ### Tap lists -/

section taps
variable {v : ViewTable} {p : Pos}

theorem Descriptor.names_iff {d : Descriptor} : d.names p = true ↔ d.source = .node p ∨ p ∈ d.sinks := by
  simp [names]

/-- A placement gives a tap to the positions that its stream names (R30). -/
theorem tapFor_eq_some {k : Page} {pl : Placement} {t : Tap} :
    tapFor v p k pl = some t ↔ ∃ d, v.get pl.stream = some d ∧ d.names p = true ∧
      t = { page := k, role := if d.source = .node p then .write else .read,
            offset := pl.offset, length := pl.length, stream := pl.stream } := by
  unfold tapFor
  cases hd : v.get pl.stream with
  | none => simp
  | some d =>
    simp only [Option.some.injEq, exists_eq_left', Descriptor.names_iff]
    by_cases source : d.source = .node p
    · simp only [source, if_true, true_or, true_and, Option.some.injEq, eq_comm]
    · by_cases sink : p ∈ d.sinks
      · simp only [source, sink, if_true, if_false, or_true, true_and, Option.some.injEq, eq_comm]
      · simp only [source, sink, if_false, or_self, false_and, reduceCtorEq]

theorem mem_compile_taps {e : Epoch} {t : Tap} :
    t ∈ (compile v e).taps.get p ↔ ∃ k, ∃ pl ∈ layoutOf v k, tapFor v p k pl = some t := by
  have taps : (compile v e).taps.get p = tapListOf v (compile v e).layouts p := Table.get_tabulate _ _
  rw [taps, tapListOf]
  simp only [List.mem_flatMap, List.mem_filterMap, compile_layouts]
  exact ⟨fun ⟨k, _, h⟩ => ⟨k, h⟩, fun ⟨k, h⟩ => ⟨k, List.mem_finRange k, h⟩⟩

/-- A tap list is in the order of pages, and of offsets on a page (R31). -/
theorem compile_taps_ordered (v : ViewTable) (e : Epoch) (p : Pos) :
    ((compile v e).taps.get p).Pairwise fun a b => a.page < b.page ∨ a.page = b.page ∧ a.offset < b.offset := by
  have taps : (compile v e).taps.get p = tapListOf v (compile v e).layouts p := Table.get_tabulate _ _
  rw [taps, tapListOf, List.pairwise_flatMap]
  refine ⟨fun k _ => ?_, (List.pairwise_lt_finRange 8).imp fun {j k} before a ha b hb => .inl ?_⟩
  · rw [compile_layouts, List.pairwise_filterMap]
    refine (layoutOf_offsets v k).imp fun {x y} before a ha b hb => .inr ?_
    obtain ⟨_, -, -, rfl⟩ := tapFor_eq_some.mp ha
    obtain ⟨_, -, -, rfl⟩ := tapFor_eq_some.mp hb
    exact ⟨rfl, before⟩
  · obtain ⟨_, -, ha⟩ := List.mem_filterMap.mp ha
    obtain ⟨_, -, hb⟩ := List.mem_filterMap.mp hb
    obtain ⟨_, -, -, rfl⟩ := tapFor_eq_some.mp ha
    obtain ⟨_, -, -, rfl⟩ := tapFor_eq_some.mp hb
    exact before

end taps

/-- Settles O10: layouts by the induction over the streams (`layoutFrom_packed`, `layoutFrom_streams`), tap lists from
them by `tapFor_eq_some`. -/
theorem plansArePackedAndTapped : Obligations.PlansArePackedAndTapped := by
  intro v e k
  have pack := layoutOf_packed v k
  refine ⟨fun a l h => ?_, fun l a b r h => ⟨?_, ?_⟩, fun l a h => ?_, compile_layouts v e k, fun pl => layoutOf_placed,
    fun id d => layoutOf_of_present, compile_taps_ordered v e, fun p t => ?_⟩
  · rw [h] at pack
    exact pack.1
  · rw [h] at pack
    obtain ⟨_, -, first, next, -⟩ := packed_append.mp pack
    rw [next, first]
  · have ascends := layoutOf_ascending v k
    rw [h] at ascends
    exact (List.pairwise_cons.mp (List.pairwise_append.mp ascends).2.1).1 b (by simp)
  · rw [h] at pack
    obtain ⟨_, -, first, last⟩ := packed_append.mp pack
    rw [first]
    exact last
  · rw [mem_compile_taps]
    constructor
    · rintro ⟨⟨j, pl, hpl, tap⟩, page⟩
      obtain ⟨d, hd, names, rfl⟩ := tapFor_eq_some.mp tap
      cases page
      exact ⟨pl, d, hpl, hd, names, rfl⟩
    · rintro ⟨pl, d, hpl, hd, names, rfl⟩
      exact ⟨⟨k, pl, hpl, tapFor_eq_some.mpr ⟨d, hd, names, rfl⟩⟩, rfl⟩

end Sys2Proof.Machine
end

section
/-! SUPPORT. The payload area of a hub cycle (R29, R89, R148, R149). -/

namespace Sys2Proof.Machine

set_option Elab.async false

/-! ### Octets written over others -/

section writes
variable {l b : List Byte} {n i : Nat}

@[simp] theorem writeAt_nil (l : List Byte) (n : Nat) : writeAt l n [] = l := by simp [writeAt]

theorem writeAt_length (h : n + b.length ≤ l.length) : (writeAt l n b).length = l.length := by
  simp [writeAt]; omega

/-- Octets outside the write stay, and those inside are the ones written. -/
theorem getElem?_writeAt (h : n + b.length ≤ l.length) :
    (writeAt l n b)[i]? = if n ≤ i ∧ i < n + b.length then b[i - n]? else l[i]? := by
  have before : (l.take n).length = n := by simp; omega
  unfold writeAt
  rw [List.append_assoc, List.getElem?_append, before]
  split
  · next low => rw [if_neg (by omega), List.getElem?_take_of_lt low]
  · rw [List.getElem?_append]
    split
    · rw [if_pos (by omega)]
    · rw [if_neg (by omega), List.getElem?_drop]
      congr 1
      omega

end writes

/-- Slots written one after another at the offsets of placements. -/
def writeSlots (slot : Placement → List Byte) (page : List Placement) (l : List Byte) : List Byte :=
  page.foldl (fun l pl => writeAt l pl.offset (slot pl)) l

section slots
variable {slot : Placement → List Byte} {page : List Placement} {l : List Byte} {a b : Nat}

theorem writeSlots_length (hp : packed a page b) (hs : ∀ pl ∈ page, (slot pl).length = pl.length)
    (hb : b ≤ l.length) : (writeSlots slot page l).length = l.length := by
  induction page generalizing a l with
  | nil => rfl
  | cons pl page ih =>
    obtain ⟨first, rest⟩ := hp
    obtain ⟨size, sizes⟩ := List.forall_mem_cons.mp hs
    have fits := writeAt_length (l := l) (b := slot pl) (n := pl.offset) (by have := rest.le; omega)
    exact (ih rest sizes (fits.symm ▸ hb)).trans fits

/-- Octets that no placement covers stay (R29). -/
theorem getElem?_writeSlots_outside {i : Nat} (hp : packed a page b) (hs : ∀ pl ∈ page, (slot pl).length = pl.length)
    (hb : b ≤ l.length) (hi : ∀ pl ∈ page, i < pl.offset ∨ pl.offset + pl.length ≤ i) :
    (writeSlots slot page l)[i]? = l[i]? := by
  induction page generalizing a l with
  | nil => rfl
  | cons pl page ih =>
    obtain ⟨first, rest⟩ := hp
    obtain ⟨size, sizes⟩ := List.forall_mem_cons.mp hs
    obtain ⟨out, outs⟩ := List.forall_mem_cons.mp hi
    have room : pl.offset + (slot pl).length ≤ l.length := by have := rest.le; omega
    refine (ih rest sizes ((writeAt_length room).symm ▸ hb) outs).trans ?_
    rw [getElem?_writeAt room, if_neg (by omega)]

/-- Each placement holds its slot (R148, R149). -/
theorem writeSlots_slot (hp : packed a page b) (hs : ∀ pl ∈ page, (slot pl).length = pl.length)
    (hb : b ≤ l.length) : ∀ pl ∈ page, ((writeSlots slot page l).drop pl.offset).take pl.length = slot pl := by
  induction page generalizing a l with
  | nil => nofun
  | cons x page ih =>
    obtain ⟨first, rest⟩ := hp
    obtain ⟨size, sizes⟩ := List.forall_mem_cons.mp hs
    have room : x.offset + (slot x).length ≤ l.length := by have := rest.le; omega
    have still := (writeAt_length room).symm ▸ hb
    rintro pl (_ | ⟨_, hpl⟩)
    · refine List.ext_getElem? fun i => ?_
      rw [List.getElem?_take, List.getElem?_drop]
      split
      · next inside =>
        refine (getElem?_writeSlots_outside rest sizes still fun y hy => .inl ?_).trans ?_
        · have := (rest.bounds y hy).1
          omega
        · rw [getElem?_writeAt room, if_pos (by omega), Nat.add_sub_cancel_left]
      · next outside => exact (List.getElem?_eq_none (by omega)).symm
    · exact ih rest sizes still pl hpl

end slots

theorem payloadOf_cycleOctets (beacon turnover : Bool) (e : Epoch) (count : CycleCount) (hop origin : Byte)
    {control payload : List Byte} (hc : control.length = 16) (hp : payload.length = 224) :
    payloadOf (cycleOctets beacon turnover e count hop origin control payload) = payload := by
  have header : ([0xF0, 0x0F] ++ ([kindEpoch beacon turnover e] ++ octets16 count ++ [hop, origin] ++ control) ++
      [crc8 ([kindEpoch beacon turnover e] ++ octets16 count ++ [hop, origin] ++ control)]).length = 24 := by
    simp [octets16, hc]
  unfold payloadOf cycleOctets
  dsimp only
  rw [List.append_assoc, List.append_assoc, List.drop_left' header, Config.payloadArea, List.take_left' hp]

/-! ### Slots -/

theorem hostSlot_length {d : Descriptor} {b : PostBuffer} (h : ∀ x, b.sample = some x → x.length = d.payload)
    (n : BitVec 4) (tag : BitVec 2) : (hostSlot d b n tag).length = d.payload + 1 := by
  cases b with
  | empty => simp [hostSlot, zeros]
  | fresh x => simp [hostSlot, h x rfl]
  | held x =>
    have size := h x rfl
    cases hp : d.policy <;> simp [hostSlot, hp, zeros, size]

namespace State

/-- The slot of a placement, none where its stream is not in force. -/
def slotAt (s : State) (pl : Placement) : List Byte :=
  match (s.entry pl.stream).inForce with
  | some d => s.slotOf pl.stream d
  | none => []

theorem payloadFor_eq (s : State) (k : Page) :
    s.payloadFor k = writeSlots s.slotAt (s.plans.inForce.layouts.get k) (zeros 224) := by
  unfold payloadFor writeSlots slotAt
  refine List.foldl_ext _ _ _ fun l pl _ => ?_
  cases (s.entry pl.stream).inForce with
  | some d => rfl
  | none => exact (writeAt_nil _ _).symm

theorem slotOf_length {s : State} (hf : s.postsFit) {id : StreamId} {d : Descriptor}
    (hd : (s.entry id).inForce = some d) : (s.slotOf id d).length = d.payload + 1 := by
  unfold slotOf
  split
  · exact hostSlot_length (fun x hx => postsFit_iff.mp hf id d x hd hx) _ _
  · simp [zeros]

section sound
variable {s : State} (hm : s.plansMatch) (hw : s.pagesWithin) (hf : s.postsFit)
include hm

/-- The placements in force are those of the in-force view (R24). -/
theorem layouts_of_plansMatch (k : Page) : s.plans.inForce.layouts.get k = layoutOf s.inForceView k := by
  rw [hm.1, compile_layouts]

theorem placed_of_plansMatch {k : Page} {pl : Placement} (hpl : pl ∈ s.plans.inForce.layouts.get k) :
    ∃ d, (s.entry pl.stream).inForce = some d ∧ pl.length = d.payload + 1 := by
  rw [layouts_of_plansMatch hm] at hpl
  obtain ⟨d, hd, -, length⟩ := layoutOf_placed hpl
  exact ⟨d, by rwa [inForceView_get] at hd, length⟩

include hf in
theorem slotAt_length {k : Page} : ∀ pl ∈ s.plans.inForce.layouts.get k, (s.slotAt pl).length = pl.length := by
  intro pl hpl
  obtain ⟨d, hd, length⟩ := placed_of_plansMatch hm hpl
  rw [length, ← slotOf_length hf hd, slotAt, hd]

include hw hf

/-- The payload area of a page: 224 octets, each placement's slot, and zeros elsewhere (R29, R89, R148, R149). -/
theorem payloadFor_holds (k : Page) : (s.payloadFor k).length = 224 ∧
    (∀ pl ∈ s.plans.inForce.layouts.get k, ((s.payloadFor k).drop pl.offset).take pl.length = s.slotAt pl) ∧
    ∀ i, i < 224 → (∀ pl ∈ s.plans.inForce.layouts.get k, i < pl.offset ∨ pl.offset + pl.length ≤ i) →
      octetAt (s.payloadFor k) i = 0 := by
  have pack : packed 0 (s.plans.inForce.layouts.get k) (pageTotal s.inForceView k) := by
    rw [layouts_of_plansMatch hm]
    exact layoutOf_packed _ _
  have sizes := slotAt_length hm hf (k := k)
  have area : (zeros 224).length = 224 := List.length_replicate
  have room : pageTotal s.inForceView k ≤ (zeros 224).length := area.symm ▸ (hw k).2.2
  rw [payloadFor_eq]
  refine ⟨(writeSlots_length pack sizes room).trans area, writeSlots_slot pack sizes room, fun i hi out => ?_⟩
  rw [octetAt, List.getD_eq_getElem?_getD, getElem?_writeSlots_outside pack sizes room out, zeros,
    List.getElem?_replicate_of_lt hi, Option.getD_some]

end sound

/-- What a switch leaves in the buffer and the counter of a stream that it puts in force (R147, R148). -/
theorem switchOver_buffers_of_inForce {s : State} {id : StreamId} {d : Descriptor}
    (hd : (s.switchOver.entry id).inForce = some d) :
    ((s.entry id).inForce = none →
      s.switchOver.mover.posts.get id = .empty ∧ s.switchOver.mover.sequences.get id = 0) ∧
    ∀ d', (s.entry id).inForce = some d' →
      s.switchOver.mover.posts.get id = (if d'.payload = d.payload then s.mover.posts.get id else .empty) ∧
        s.switchOver.mover.sequences.get id = s.mover.sequences.get id := by
  rw [switchOver_entry] at hd
  replace hd : (s.entry id).outgoing = some d := hd
  obtain ⟨posts, sequences⟩ := s.switchOver_buffers id
  rw [posts, sequences, hd]
  refine ⟨fun old => ?_, fun d' old => ?_⟩
  · simp [old, emptiesPost]
  · simp only [old, emptiesPost, reduceCtorEq, false_and, if_false, and_true]
    by_cases size : d'.payload = d.payload <;> simp [size]

section hub
variable {s : State} (hm : s.plansMatch) (hw : s.pagesWithin) (hf : s.postsFit)
include hm hw hf

/-- The payload area of a hub cycle is that of the state the cycle is composed of (R80, R89). -/
theorem payloadOf_sendCycle :
    payloadOf s.sendCycle.ring.rgo = s.composing.payloadFor (pageOf s.ring.nextCount) := by
  have keeps := s.composing_keeps
  obtain ⟨length, -, -⟩ := payloadFor_holds (keeps.plans hm) (keeps.pages hw) (keeps.posts hf) (pageOf s.ring.nextCount)
  rw [sendCycle_eq]
  exact payloadOf_cycleOctets _ _ _ _ _ _ (controlFor_field_length _ _) length

end hub

end State

/-- Settles O45: the slots by `hostSlot`, the payload area by `State.payloadFor_holds` of the state the cycle is
composed of, and the buffers by the fill of its page. -/
theorem fillFollowsBuffer : Obligations.FillFollowsBuffer := by
  refine ⟨fun d n tag x => ⟨⟨rfl, rfl, rfl⟩, fun h => ?_, fun h => ?_, rfl, rfl, rfl, rfl, rfl⟩, ?_⟩
  · simp [hostSlot, h]
  · simp [hostSlot, h]
  · intro s hoff hquiet hm hw hf
    have sends : s.ring.sends = true := by
      unfold Ring.sends
      split <;> simp_all
    refine ⟨s.sendCycle, congrArg _ (if_pos sends), ?_⟩
    have keeps := s.composing_keeps
    obtain ⟨length, slots, fill⟩ :=
      State.payloadFor_holds (keeps.plans hm) (keeps.pages hw) (keeps.posts hf) (pageOf s.ring.nextCount)
    have sent := State.payloadOf_sendCycle hm hw hf
    have frame := s.sendCycle_eq
    have plans : s.sendCycle.plans = s.composing.plans := by rw [frame]
    have epoch : s.sendCycle.turnover.epoch = s.composing.turnover.epoch := by rw [frame]
    have entries (id : StreamId) : s.sendCycle.entry id = s.composing.entry id := by rw [frame]; rfl
    have mover : s.sendCycle.mover = s.composing.moverAfter (pageOf s.ring.nextCount) := by rw [frame]
    rw [sent, plans, epoch, mover]
    refine ⟨length, fun pl hpl => ?_, fill, fun still id => ?_⟩
    · obtain ⟨d, hd, -⟩ := State.placed_of_plansMatch (keeps.plans hm) hpl
      have slot : _ = s.composing.slotOf pl.stream d := (slots pl hpl).trans (by rw [State.slotAt, hd])
      refine ⟨d, by rw [entries]; exact hd, fun node => ?_, fun host => ⟨fun still => ?_, fun due => ?_⟩⟩
      · rw [slot, State.slotOf]
        split
        · next host => exact absurd host node
        · rfl
      · rw [slot, State.slotOf, host, State.composing_of_not_due still]
      · rw [slot, State.slotOf, host]
        rw [State.composing_of_due due] at hd ⊢
        obtain ⟨new, old⟩ := State.switchOver_buffers_of_inForce hd
        dsimp only
        split
        · next was => rw [(new was).1, (new was).2]
        · next d' was =>
          rw [(old d' was).1, (old d' was).2]
          split <;> rfl
    · rw [State.composing_of_not_due still]
      refine ⟨fun ⟨pl, d, hpl, hid, hd, hhost⟩ => State.moverAfter_of_hostOn (State.hostOn_iff.mpr
        ⟨⟨pl, hpl, hid⟩, d, hd, hhost⟩),
        fun h => State.moverAfter_of_not_hostOn (Bool.eq_false_iff.mpr fun filled => ?_)⟩
      obtain ⟨⟨pl, hpl, hid⟩, d, hd, hhost⟩ := State.hostOn_iff.mp filled
      exact h.elim (fun h => h pl hpl hid) fun h => h d hd hhost

end Sys2Proof.Machine
end

section
/-! SUPPORT. The sizes of the queues (R41, R57, R156, R161, R177) and the lapses that wait for an item (R43, R171, R172):
what every operation on a port keeps of them. -/

namespace Sys2Proof.Machine

set_option Elab.async false

@[simp] theorem occupancy_append (q r : List Record) : occupancy (q ++ r) = occupancy q + occupancy r := by
  simp [occupancy]
@[simp] theorem occupancy_singleton (x : Record) : occupancy [x] = x.size := by simp [occupancy]

/-- A queue takes no more octets for a record less. -/
theorem occupancy_tail_le (q : List Record) : occupancy q.tail ≤ occupancy q := by
  cases q with
  | nil => exact le_refl _
  | cons x q => simp [occupancy]

/-- Completed transactions wait only for a lapse that is due (R171). -/
def HostPort.waitsForLapse (h : HostPort) : Prop := h.ended ≠ [] → h.lapseDue = true

/-- What a port becomes keeps its reservation and the sizes of its queues; it has no lapse due that was not due, and
no completed transaction waits for another (R41, R161, R171). -/
structure HostPort.orderly (h h' : HostPort) : Prop where
  reserved : h'.reserved = h.reserved
  due      : h'.lapseDue = true → h.lapseDue = true
  waits    : h.waitsForLapse → h'.waitsForLapse
  bounded  : h.bounded → h'.bounded

namespace HostPort

theorem orderly_refl (h : HostPort) : h.orderly h := ⟨rfl, id, id, id⟩

theorem orderly.trans {a b c : HostPort} (h : a.orderly b) (h' : b.orderly c) : a.orderly c :=
  ⟨h'.reserved.trans h.reserved, h.due ∘ h'.due, h'.waits ∘ h.waits, h'.bounded ∘ h.bounded⟩

/-- What leaves reservation and lapse and keeps the sizes is orderly. -/
theorem orderly_of {h h' : HostPort} (bounded : h.bounded → h'.bounded) (reserved : h'.reserved = h.reserved := by rfl)
    (lapseDue : h'.lapseDue = h.lapseDue := by rfl) (ended : h'.ended = h.ended := by rfl) : h.orderly h' :=
  ⟨reserved, fun d => lapseDue ▸ d, by unfold waitsForLapse; rw [ended, lapseDue]; exact id, bounded⟩

/-- What leaves reservation, lapse, queues, stack and transaction is orderly. -/
theorem orderly_of_same {h h' : HostPort} (reserved : h'.reserved = h.reserved := by rfl)
    (lapseDue : h'.lapseDue = h.lapseDue := by rfl) (ended : h'.ended = h.ended := by rfl)
    (requests : h'.requests = h.requests := by rfl) (responses : h'.responses = h.responses := by rfl)
    (delivery : h'.delivery = h.delivery := by rfl) (stack : h'.events.stack = h.events.stack := by rfl)
    (txn : h'.txn = h.txn := by rfl) : h.orderly h' :=
  orderly_of (by unfold bounded; rw [requests, responses, reserved, delivery, stack, txn]; exact id)
    reserved lapseDue ended

/-! ### Notices -/

theorem raise_orderly (h : HostPort) (k : EventKind) : h.orderly (h.raise k) := by
  unfold raise
  split <;> exact orderly_of_same

theorem raiseIf_orderly (h : HostPort) (c : Bool) (k : EventKind) : h.orderly (h.raiseIf c k) := by
  unfold raiseIf
  split
  · exact h.raise_orderly k
  · exact h.orderly_refl

/-- An entry appended within the room of the response queue (R41, R161). -/
theorem append_orderly {h : HostPort} (e : ResponseEntry) (room : h.hasFree = true) : h.orderly (h.append e) := by
  refine orderly.trans (b := { h with responses := h.responses ++ [e] }) (orderly_of fun b => ?_) (raise_orderly _ _)
  obtain ⟨requests, -, rest⟩ := b
  refine ⟨requests, ?_, rest⟩
  have free : _ < 8 := of_decide_eq_true room
  rw [List.length_append, List.length_singleton, Nat.add_right_comm]
  exact free

theorem post_orderly (h : HostPort) (n : Notice) : h.orderly (h.post n) := by
  rcases h.post_cases n with ⟨-, e⟩ | ⟨-, room, e⟩ | ⟨-, -, e⟩ <;> rw [e]
  · exact h.orderly_refl
  · exact (append_orderly _ room).trans (raiseIf_orderly _ _ _)
  · exact h.raise_orderly _

theorem postEach_orderly (h : HostPort) (l : List Notice) : h.orderly (h.postEach l) := by
  induction l generalizing h with
  | nil => exact h.orderly_refl
  | cons n l ih => exact (h.post_orderly n).trans (ih _)

theorem postNode_orderly (h : HostPort) (n : Notice) : h.orderly (h.postNode n) :=
  (h.post_orderly n).trans (raise_orderly _ _)

theorem ringChanged_orderly (h : HostPort) (st : RingState) (b : Fin 17) (r : RingReason) :
    h.orderly (h.ringChanged st b r) :=
  ((h.post_orderly _).trans (raiseIf_orderly _ _ _)).trans (raiseIf_orderly _ _ _)

/-! ### Completed transactions and session ends -/

theorem touchLease_orderly (h : HostPort) : h.orderly h.touchLease := by
  unfold touchLease
  split <;> exact orderly_of_same

/-- A request queue takes a frame only while it has room (R161, R164). -/
theorem takeFrame_orderly (h : HostPort) (taken : List Byte) : h.orderly (h.takeFrame taken) := by
  unfold takeFrame
  split
  · next room =>
    have free : _ < 4 := of_decide_eq_true (Bool.and_eq_true_iff.mp room).2
    refine orderly_of fun ⟨_, rest⟩ => ⟨?_, rest⟩
    rw [List.length_append, List.length_singleton]
    exact free
  · exact h.raise_orderly _

theorem takeEventset_orderly (h : HostPort) (taken : List Byte) : h.orderly (h.takeEventset taken) := by
  unfold takeEventset
  split
  · split
    · exact orderly_of_same
    · exact h.raise_orderly _
  · exact h.orderly_refl

theorem finish_orderly (h : HostPort) (t : Txn) : h.orderly (h.finish t) := by
  unfold finish
  refine orderly.trans ?_ (touchLease_orderly _)
  split
  · exact h.takeFrame_orderly _
  · exact h.takeEventset_orderly _
  · exact h.raise_orderly _
  all_goals exact h.orderly_refl

theorem endSession_orderly (h : HostPort) : h.orderly h.endSession := by
  refine orderly_of fun ⟨_, responses, _, _, bits⟩ => ⟨Nat.zero_le _, ?_, Nat.zero_le _, Nat.zero_le _, ?_⟩
  · exact (Nat.add_le_add_right (Nat.zero_le _) _).trans responses
  · intro x hx
    obtain ⟨t, ht, rfl⟩ := Option.map_eq_some_iff.mp hx
    exact bits t ht

/-! ### Transactions -/

/-- A transaction begun, or gone on, with fewer than eight bits of an octet (R162). -/
theorem orderly_of_txn {h : HostPort} {t : Txn} (ht : t.bits.length < 8) : h.orderly { h with txn := some t } :=
  orderly_of fun ⟨requests, responses, delivery, stack, _⟩ =>
    ⟨requests, responses, delivery, stack, fun x hx => by cases hx; exact ht⟩

/-- TAKE pushes a level only while the service stack has room (R177, R181). -/
theorem take_stack_le {e : EventUnit} (h : e.stack.length ≤ 2) : e.take.1.stack.length ≤ 2 := by
  unfold EventUnit.take
  dsimp only
  split
  · exact h
  · split
    · next room => exact room
    · exact h

theorem serviceDone_stack_le {e : EventUnit} (h : e.stack.length ≤ 2) : e.serviceDone.1.stack.length ≤ 2 := by
  unfold EventUnit.serviceDone
  split
  · exact h
  · next l rest hs =>
    rw [hs] at h
    exact (Nat.le_succ _).trans h

/-- A service stack within its size keeps a port within its sizes (R177). -/
theorem orderly_of_events {h : HostPort} {e : EventUnit} (he : h.events.stack.length ≤ 2 → e.stack.length ≤ 2) :
    h.orderly { h with events := e } :=
  orderly_of fun ⟨requests, responses, delivery, stack, bits⟩ => ⟨requests, responses, delivery, he stack, bits⟩

theorem serve_orderly (h : HostPort) (k : TxnKind) (block : List Byte) : h.orderly (h.serve k block) := by
  have start (g : HostPort) (l : List Byte) (removes : Bool) :
      g.orderly { g with txn := some (Txn.start k l removes) } := orderly_of_txn (Nat.zero_lt_succ 7)
  unfold serve
  cases k with
  | fetch => dsimp only; split <;> exact start _ _ _
  | take => exact (orderly_of_events take_stack_le).trans (start _ _ _)
  | serviceDone => exact (orderly_of_events serviceDone_stack_le).trans (start _ _ _)
  | request | drain | post | status | eventset | unknown => exact start _ _ _

theorem endOctet_orderly (h : HostPort) (block : HostPort → List Byte) (t : Txn) (b : Byte) :
    h.orderly (h.endOctet block t b) := by
  have gone (g : HostPort) (x : Txn) (hx : x.bits = []) : g.orderly { g with txn := some x } :=
    orderly_of_txn (by rw [hx]; exact Nat.zero_lt_succ 7)
  have fetched : h.orderly { h with responses := if t.completes then h.responses.tail else h.responses } :=
    orderly_of fun ⟨requests, responses, rest⟩ => ⟨requests, by
      have shorter := List.length_tail (l := h.responses)
      dsimp only
      split
      · omega
      · exact responses, rest⟩
  have drained : h.orderly { h with delivery := if t.completes then h.delivery.tail else h.delivery } :=
    orderly_of fun ⟨requests, responses, delivery, rest⟩ => ⟨requests, responses, by
      dsimp only
      split
      · exact (occupancy_tail_le _).trans delivery
      · exact delivery, rest⟩
  unfold endOctet
  split
  · exact h.serve_orderly _ _
  · exact gone h _ rfl
  · exact gone h _ rfl
  · exact gone h _ rfl
  · exact fetched.trans (gone _ _ rfl)
  · exact drained.trans (gone _ _ rfl)
  all_goals exact gone h _ rfl

theorem clockBit_orderly (block : HostPort → List Byte) (h : HostPort) (b : Bool) : h.orderly (h.clockBit block b) := by
  unfold clockBit
  split
  · exact h.orderly_refl
  · next t ht =>
    dsimp only
    have shown : h.orderly { h with hdo := h.hdo ++ [(t.outgoing h.delivery).nextBit] } := orderly_of_same
    split
    · exact shown.trans (endOctet_orderly _ _ _ _)
    · next short =>
      refine shown.trans (orderly_of fun ⟨requests, responses, delivery, stack, bits⟩ =>
        ⟨requests, responses, delivery, stack, fun x hx => ?_⟩)
      cases hx
      have few := bits t ht
      rw [Txn.outgoing_bits] at short ⊢
      simp only [List.length_append, List.length_singleton]
      omega

theorem clockBits_orderly (block : HostPort → List Byte) (l : List Bool) (h : HostPort) :
    h.orderly (l.foldl (clockBit block) h) := by
  induction l generalizing h with
  | nil => exact h.orderly_refl
  | cons b l ih => exact (h.clockBit_orderly block b).trans (ih _)

theorem select_orderly (h : HostPort) (running : Bool) : h.orderly (h.select running) := by
  unfold select
  split
  · exact orderly.trans (b := { h with hdo := [] }) orderly_of_same (orderly_of_txn (Nat.zero_lt_succ 7))
  · exact h.orderly_refl

/-- A transaction over (R162). -/
theorem deselect_orderly (h : HostPort) : h.orderly { h with txn := none } :=
  orderly_of fun ⟨requests, responses, delivery, stack, _⟩ => ⟨requests, responses, delivery, stack, nofun⟩

/-! ### Records -/

theorem countGap_orderly (h : HostPort) (id : StreamId) : h.orderly (h.countGap id) := orderly_of_same

/-- A delivery queue takes a record only while it has room (R156). -/
theorem deliver_orderly (h : HostPort) (x : Record) : h.orderly (h.deliver x) := by
  unfold deliver
  split
  · next room =>
    refine orderly.trans (b := { h with
      delivery := h.delivery ++ [{ x with gap := h.gaps.get x.stream }], gaps := h.gaps.set x.stream 0 })
      (orderly_of fun ⟨requests, responses, _, rest⟩ => ⟨requests, responses, ?_, rest⟩) (raiseIf_orderly _ _ _)
    rw [occupancy_append, occupancy_singleton]
    exact room
  · exact (h.countGap_orderly _).trans (raise_orderly _ _)

theorem receive_orderly (h : HostPort) (r : CycleRecord) (cls : ReturnClass) (pl : Placement) :
    h.orderly (h.receive r cls pl) := by
  unfold receive
  split
  · split
    · exact h.deliver_orderly _
    · exact h.countGap_orderly _
  · exact h.orderly_refl

theorem reset_bounded (cause : ResetCause) (authority held : Bool) :
    ({ reset cause authority with heldOver := held } : HostPort).bounded :=
  ⟨Nat.zero_le _, Nat.zero_le _, Nat.zero_le _, Nat.zero_le _, nofun⟩

end HostPort

end Sys2Proof.Machine
end

section
/-! SUPPORT. What every operation of the part keeps of the queues' sizes and of the lapses that wait: `State.orderly`. -/

namespace Sys2Proof.Machine

set_option Elab.async false

/-- No two entries of the internal edit list are for one port or one position (R57). -/
def distinctEntries (l : List InternalEntry) : Prop := l.Pairwise fun a b => a.sameSubject b = false

/-- Every port is orderly, the item in processing stays, and the entries of the internal edit list stay distinct. -/
structure State.orderly (s t : State) : Prop where
  ports      : ∀ q, (s.port q).orderly (t.port q)
  processing : t.admission.processing = s.admission.processing
  internal   : distinctEntries s.admission.internal → distinctEntries t.admission.internal

namespace State

theorem orderly_refl (s : State) : s.orderly s := ⟨fun _ => HostPort.orderly_refl _, rfl, id⟩

theorem orderly.trans {s t u : State} (h : s.orderly t) (h' : t.orderly u) : s.orderly u :=
  ⟨fun q => (h.ports q).trans (h'.ports q), h'.processing.trans h.processing, h'.internal ∘ h.internal⟩

/-- What reaches the ports alone is orderly when it is at each port. -/
theorem orderly_of_ports {s t : State} (ports : ∀ q, (s.port q).orderly (t.port q))
    (processing : t.admission.processing = s.admission.processing := by rfl)
    (internal : t.admission.internal = s.admission.internal := by rfl) : s.orderly t :=
  ⟨ports, processing, by rw [internal]; exact id⟩

/-- What reaches neither the ports nor the Admission Unit's items is orderly. -/
theorem orderly_of_untouched {s t : State} (ports : t.ports = s.ports := by rfl)
    (processing : t.admission.processing = s.admission.processing := by rfl)
    (internal : t.admission.internal = s.admission.internal := by rfl) : s.orderly t :=
  orderly_of_ports (fun q => by unfold port; rw [ports]; exact HostPort.orderly_refl _) processing internal

theorem modPort_orderly (s : State) (p : Port) (f : HostPort → HostPort) (h : (s.port p).orderly (f (s.port p))) :
    s.orderly (s.modPort p f) := by
  refine orderly_of_ports fun q => ?_
  by_cases e : p = q
  · subst e; rw [modPort_port_self]; exact h
  · rw [modPort_port_ne _ _ e]; exact HostPort.orderly_refl _

/-! ### Notices, node changes, ring states -/

theorem postAll_orderly (s : State) (l : List (Port × Notice)) : s.orderly (s.postAll l) :=
  orderly_of_ports fun q => by rw [postAll_port]; exact HostPort.postEach_orderly _ _

theorem changeNode_orderly (s : State) (p : Pos) (f : NodeEntry → NodeEntry) (c : NodeCause) :
    s.orderly (s.changeNode p f c) := by
  refine orderly_of_ports fun q => ?_
  simp only [port, changeNode]
  split
  · rw [Table.get_map]; exact HostPort.postNode_orderly _ _
  · exact HostPort.orderly_refl _

theorem changeNodes_orderly (s : State) (ps : List Pos) (f : NodeEntry → NodeEntry) (c : NodeCause) :
    s.orderly (s.changeNodes ps f c) :=
  changeNodes_induct (P := s.orderly) (fun u p h => h.trans (u.changeNode_orderly p f c)) ps s s.orderly_refl

theorem enterRing_orderly (s : State) (st : RingState) (r : RingReason) : s.orderly (s.enterRing st r) :=
  orderly_of_ports fun q => by rw [enterRing_port]; exact HostPort.ringChanged_orderly _ _ _ _

theorem abandon_orderly (s : State) : s.orderly s.abandon := by
  unfold abandon
  split <;> exact orderly_of_untouched

theorem leaveRunning_orderly (s : State) (failing : Bool) : s.orderly (s.leaveRunning failing) := by
  have fails : s.orderly (if failing then s.failVerification else s) := by
    split
    · exact changeNodes_orderly _ _ _ _
    · exact s.orderly_refl
  unfold leaveRunning
  split
  · exact (fails.trans orderly_of_untouched).trans (abandon_orderly _)
  · exact s.orderly_refl

theorem halt_orderly (s : State) (r : RingReason) : s.orderly (s.halt r) :=
  (s.leaveRunning_orderly true).trans (enterRing_orderly _ _ _)

theorem endRingWork_orderly (s : State) : s.orderly s.endRingWork :=
  (s.leaveRunning_orderly false).trans orderly_of_untouched

theorem beginQuiet_orderly (s : State) (d : QuietDest) (r : RingReason) : s.orderly (s.beginQuiet d r) :=
  orderly.trans orderly_of_untouched (enterRing_orderly _ _ _)

/-! ### Transactions and sessions -/

theorem finish_orderly (s : State) (p : Port) (t : Txn) : s.orderly (s.finish p t) := by
  have posted : s.orderly (s.takePost p t.taken) := by
    refine orderly.trans (modPort_orderly s p (fun h => h.raiseIf (s.judgePost p t.taken == .rejected) .protocol) ?_)
      orderly_of_untouched
    exact HostPort.raiseIf_orderly _ _ _
  unfold finish
  split
  · exact posted.trans (modPort_orderly _ _ _ (HostPort.finish_orderly _ t))
  · exact modPort_orderly _ _ _ (HostPort.finish_orderly _ t)

/-- A lapse carried out leaves none due, and no completed transaction waiting for it (R171, R172). -/
theorem lapse_orderly (s : State) (p : Port) : s.orderly (s.lapse p) := by
  have settles {h h' : HostPort} (o : h.orderly h') (g : HostPort) (reserved : g.reserved = h'.reserved)
      (due : g.lapseDue = false) (ended : g.ended = []) (bounded : h'.bounded → g.bounded) : h.orderly g :=
    ⟨reserved.trans o.reserved, fun d => absurd (due.symm.trans d) Bool.false_ne_true, fun _ n => absurd ended n,
      bounded ∘ o.bounded⟩
  rcases s.lapse_cases p with ⟨-, e⟩ | ⟨-, e⟩ <;> rw [e]
  · refine finishEnded_induct (P := s.orderly) (fun u t h => h.trans (u.finish_orderly p t)) _ ?_
    rw [modPort_modPort]
    refine ⟨fun q => ?_, rfl, fun h => enqueue_pairwise _ h⟩
    by_cases hq : p = q
    · subst hq
      rw [modPort_port_self, show (s.endSession p).port p = (s.port p).endSession from Table.get_modify_self _ _ _]
      exact settles (s.port p).endSession_orderly _ rfl rfl rfl id
    · rw [modPort_port_ne _ _ hq, show (s.endSession p).port q = s.port q from Table.get_modify_ne _ _ hq]
      exact HostPort.orderly_refl _
  · refine finishEnded_induct (P := s.orderly) (fun u t h => h.trans (u.finish_orderly p t)) _ ?_
    rw [modPort_modPort]
    exact s.modPort_orderly p _ (settles (HostPort.orderly_refl _) _ rfl rfl rfl id)

theorem grantLapse_orderly (s : State) (p : Port) : s.orderly (s.grantLapse p) := by
  rcases s.grantLapse_cases p with ⟨-, e⟩ | ⟨-, -, e⟩ <;> rw [e]
  · exact s.orderly_refl
  · exact s.lapse_orderly p

theorem settleLapses_orderly (s : State) : s.orderly s.settleLapses := by
  refine settleLapses_induct (P := s.orderly) (fun u p h => h.trans ?_) s s.orderly_refl
  unfold settleLapse
  split
  · exact u.lapse_orderly p
  · exact u.orderly_refl

theorem clocked_orderly (s : State) (p : Port) (bits : List Bool) : s.orderly (s.clocked p bits) := by
  refine orderly_of_ports fun q => ?_
  simp only [port, clocked, Table.get_set]
  split
  · next e =>
    subst e
    exact (HostPort.select_orderly _ _).trans (HostPort.clockBits_orderly _ _ _)
  · exact HostPort.orderly_refl _

/-- A completed transaction takes its effect, or waits for the lapse that is due (R162, R171). -/
theorem release_orderly (s : State) (p : Port) : s.orderly (s.release p) := by
  have ended : s.orderly (s.modPort p fun h => { h with txn := none }) :=
    s.modPort_orderly p _ (HostPort.deselect_orderly _)
  unfold release
  split
  · exact s.orderly_refl
  · dsimp only
    split
    · exact ended
    · split
      · next due => exact ended.trans (modPort_orderly _ p _ ⟨rfl, id, fun _ _ => due, id⟩)
      · exact ended.trans (finish_orderly _ p _)

theorem transact_orderly (s : State) (k : TxnKind) (p : Port) (bits : List Bool) (release : Bool) :
    s.orderly (s.transact k p bits release) := by
  unfold transact
  split
  · exact s.modPort_orderly p _ HostPort.orderly_of_same
  · have clocks := (s.grantLapse_orderly p).trans (clocked_orderly _ p bits)
    dsimp only
    repeat' split
    · exact clocks.trans (release_orderly _ p)
    · exact clocks
    · exact s.grantLapse_orderly p

/-! ### Returns -/

theorem engine_orderly (s : State) (r : CycleRecord) (cls : ReturnClass) : s.orderly (s.engine r cls) := by
  have left (g : Ring) (st : RingState) (reason : RingReason) :
      s.orderly ((({ s with ring := g } : State).leaveRunning true).enterRing st reason) :=
    orderly.trans orderly_of_untouched ((leaveRunning_orderly _ _).trans (enterRing_orderly _ _ _))
  have healed (g : Ring) (reason : RingReason) :
      s.orderly ((({ s with ring := g } : State).enterRing .running reason).beginVerification) :=
    (orderly.trans orderly_of_untouched (enterRing_orderly _ _ _)).trans orderly_of_untouched
  unfold engine missInRunning returnInRunning goodInBroken
  dsimp only
  repeat' split
  any_goals exact s.orderly_refl
  any_goals exact left _ _ _
  any_goals exact healed _ _
  all_goals exact orderly_of_untouched

theorem numberingFailed_orderly (s : State) : s.orderly s.numberingFailed := by
  unfold numberingFailed
  repeat' split
  · exact orderly.trans orderly_of_untouched (enterRing_orderly _ _ _)
  all_goals exact orderly_of_untouched

theorem numberingReturned_orderly (s : State) (c d : Nat) : s.orderly (s.numberingReturned c d) := by
  unfold numberingReturned
  dsimp only
  repeat' split
  · exact orderly_of_untouched
  all_goals exact orderly.trans orderly_of_untouched (enterRing_orderly _ _ _)

theorem identifyNext_orderly (s : State) (p : Pos) : s.orderly (s.identifyNext p) := by
  unfold identifyNext
  repeat' split
  · exact orderly_of_untouched
  · exact orderly_of_untouched
  · exact orderly.trans orderly_of_untouched (enterRing_orderly _ _ _)

theorem verified_orderly (s : State) (p : Pos) (i : Identity) (held : Option Epoch) :
    s.orderly (s.verified p i held) := by
  unfold verified
  split
  · refine (s.changeNode_orderly p (fun e => e.verified held s.turnover.epoch) .verification).trans ?_
    exact orderly_of_untouched
  · exact orderly.trans (t := s.verifyNext) orderly_of_untouched (halt_orderly _ _)

theorem queueInternal_orderly (s : State) (e : InternalEntry) : s.orderly (s.queueInternal e) :=
  ⟨fun _ => HostPort.orderly_refl _, rfl, fun h => enqueue_pairwise _ h⟩

theorem giveUp_orderly (s : State) (u : User) (p : Pos) : s.orderly (s.giveUp u p) := by
  cases u with
  | numbering => exact s.orderly_refl
  | identification => exact orderly.trans (t := s.updateNode p _) orderly_of_untouched (identifyNext_orderly _ p)
  | verification => exact (changeNode_orderly _ _ _ _).trans orderly_of_untouched
  | distribution => exact orderly.trans (t := s.modWork _) orderly_of_untouched (changeNode_orderly _ _ _ _)
  | refresh =>
    simp only [giveUp, refreshFailed]
    split
    · exact (orderly.trans orderly_of_untouched (changeNode_orderly _ _ _ _)).trans (queueInternal_orderly _ _)
    · exact orderly_of_untouched

theorem attemptFailed_orderly (s : State) (x : Exchange) : s.orderly (s.attemptFailed x) := by
  unfold attemptFailed
  repeat' split
  · exact orderly.trans (t := s.closeExchange) orderly_of_untouched (numberingFailed_orderly _)
  · exact orderly_of_untouched
  · exact orderly.trans (t := s.closeExchange) orderly_of_untouched (giveUp_orderly _ _ _)

theorem nakHeard_orderly (s : State) (x : Exchange) : s.orderly (s.nakHeard x) := by
  unfold nakHeard
  split
  · exact s.orderly_refl
  · split
    · exact orderly.trans (t := s.closeExchange) orderly_of_untouched (giveUp_orderly _ _ _)
    · dsimp only
      repeat' split
      all_goals exact orderly_of_untouched

theorem ackHeard_orderly (s : State) (x : Exchange) : s.orderly (s.ackHeard x) := by
  unfold ackHeard refreshAcked
  dsimp only
  repeat' split
  case h_2.isFalse.isFalse =>
    exact orderly.trans orderly_of_untouched (changeNode_orderly _ _ _ _)
  all_goals exact orderly_of_untouched

theorem identityHeard_orderly (s : State) (x : Exchange) (i : Identity) (held : Option Epoch) :
    s.orderly (s.identityHeard x i held) := by
  unfold identityHeard
  split
  · exact orderly.trans (t := s.closeExchange.updateNode _ _) orderly_of_untouched (identifyNext_orderly _ _)
  · exact orderly.trans (t := s.closeExchange) orderly_of_untouched (verified_orderly _ _ _ _)
  · exact orderly_of_untouched

theorem channel_orderly (s : State) (r : CycleRecord) (cls : ReturnClass) (d : Nat) :
    s.orderly (s.channel r cls d) := by
  unfold channel
  repeat' split
  · exact s.attemptFailed_orderly _
  · exact orderly.trans (t := s.closeExchange) orderly_of_untouched (numberingReturned_orderly _ _ _)
  · exact s.identityHeard_orderly _ _ _
  · exact s.ackHeard_orderly _
  · exact s.nakHeard_orderly _
  all_goals exact s.orderly_refl

theorem extract_orderly (s : State) (r : CycleRecord) (cls : ReturnClass) (drains : List (List DrainPart)) :
    s.orderly (s.extract r cls drains) := by
  unfold extract
  split
  · exact s.orderly_refl
  · exact handle_induct (P := s.orderly) (fun u d h => h.trans (u.transact_orderly _ _ _ _))
      (fun u p pl h => h.trans (u.modPort_orderly p _ (HostPort.receive_orderly _ _ _ _))) _ _ s s.orderly_refl

theorem evaluate_orderly (s : State) (r : CycleRecord) (cls : ReturnClass) (d : Nat)
    (drains : List (List DrainPart)) : s.orderly (s.evaluate r cls d drains) := by
  have released : s.orderly (s.released r cls) := orderly_of_untouched
  have heard := (released.trans (engine_orderly _ r cls)).trans (channel_orderly _ r cls d)
  refine (heard.trans (extract_orderly _ r cls drains)).trans ?_
  exact orderly_of_untouched

/-! ### Edits, the switch, the reconciliation, the entry into OFF -/

theorem internalEdit_orderly (s : State) (change : StreamId → Descriptor → StreamChange) :
    s.orderly (s.internalEdit change) := by
  refine orderly.trans (t := { s with
    admission := { s.admission with internal := s.admission.internal.tail } }) ⟨fun _ => HostPort.orderly_refl _, rfl,
      fun h => List.Pairwise.sublist (List.tail_sublist _) h⟩ ?_
  exact orderly.trans orderly_of_untouched (postAll_orderly _ _)

theorem switchOver_orderly (s : State) : s.orderly s.switchOver := by
  have tables : s.orderly s.switchedTables := orderly_of_ports fun q => by
    simp only [switchedTables, port, Table.get_tabulate]
    exact HostPort.orderly_of_same
  have switched (u : State) (epoch : Epoch) : u.orderly (u.switchNodes epoch) :=
    orderly.trans (t := u.withAcks epoch) orderly_of_untouched (changeNodes_orderly _ _ _ _)
  have told := (tables.trans (switched _ (s.turnover.target.getD s.turnover.epoch))).trans
    (postAll_orderly _ (settledNotices s.turnover.outTickets (s.turnover.target.getD s.turnover.epoch)))
  rw [switchOver_eq]
  exact told.trans orderly_of_untouched

theorem sendCycle_orderly (s : State) : s.orderly s.sendCycle := by
  have composed : s.orderly s.composing := by
    unfold composing
    split
    · exact s.switchOver_orderly
    · exact s.orderly_refl
  rw [sendCycle_eq]
  exact composed.trans orderly_of_untouched

theorem enterOff_orderly (s : State) : s.orderly s.enterOff := by
  have told := s.postAll_orderly s.stoppedNotices
  refine told.trans (orderly.trans (t := { s.postAll s.stoppedNotices with
    ports := (s.postAll s.stoppedNotices).ports.map fun h => { h with gaps := Table.fill 0 }
    admission := { s.admission with internal := [] } }) ⟨fun q => ?_, rfl, fun _ => .nil⟩
      (orderly.trans orderly_of_untouched (enterRing_orderly _ _ _)))
  simp only [port, Table.get_map]
  exact HostPort.orderly_of_same

theorem endQuiet_orderly (s : State) : s.orderly s.endQuiet := by
  unfold endQuiet
  split
  · exact orderly.trans orderly_of_untouched (enterRing_orderly _ _ _)
  · exact s.enterOff_orderly
  · exact s.orderly_refl

theorem foldl_enqueue_distinct (l m : List InternalEntry) (h : distinctEntries l) :
    distinctEntries (m.foldl enqueue l) := by
  induction m generalizing l with
  | nil => exact h
  | cons e m ih => exact ih _ (enqueue_pairwise e h)

theorem reconcile_orderly (s : State) (old : Retained) : s.orderly (s.reconcile old) :=
  orderly.trans (t := { s with
    admission :=
      { s.admission with
        internal := ((goneNodes old.entries s.nodes.entries).map fun p =>
          InternalEntry.changed p (referenceList s.stagedView p)).foldl enqueue s.admission.internal } })
    ⟨fun _ => HostPort.orderly_refl _, rfl, foldl_enqueue_distinct _ _⟩
    (orderly.trans orderly_of_untouched (enterRing_orderly _ _ _))

/-! ### Requests -/

theorem editing_orderly (judge : Port → List Byte → State → Except Denial Edit) (p : Port) (f : List Byte)
    (s : State) : s.orderly (editing judge p f s).1 := by
  rcases editing_cases judge p f s with ⟨d, -, e⟩ | ⟨d, -, e⟩ <;> rw [e]
  · exact s.orderly_refl
  · exact orderly.trans orderly_of_untouched (postAll_orderly _ _)

theorem ringLevel_orderly {p : Port} {act : Effect} {s : State} (h : s.orderly (act s).1) :
    s.orderly (ringLevel p act s).1 := by
  unfold ringLevel
  split
  · exact h
  · exact s.orderly_refl

theorem actStreamQuery_orderly (p : Port) (f : List Byte) (s : State) : s.orderly (actStreamQuery p f s).1 := by
  unfold actStreamQuery
  split <;> exact s.orderly_refl

theorem actNodeQuery_orderly (p : Port) (f : List Byte) (s : State) : s.orderly (actNodeQuery p f s).1 := by
  unfold actNodeQuery
  split <;> exact orderly_of_untouched

theorem actAttach_orderly (p : Port) (f : List Byte) (s : State) : s.orderly (actAttach p f s).1 := by
  unfold actAttach
  split
  · exact s.orderly_refl
  · exact s.modPort_orderly p _ HostPort.orderly_of_same

theorem actDetach_orderly (p : Port) (f : List Byte) (s : State) : s.orderly (actDetach p f s).1 := by
  refine orderly.trans (t := s.endSession p) ⟨fun q => ?_, rfl, fun h => enqueue_pairwise _ h⟩
    (modPort_orderly _ p _ HostPort.orderly_of_same)
  simp only [port, endSession, Table.get_modify]
  split
  · exact HostPort.endSession_orderly _
  · exact HostPort.orderly_refl _

theorem actSetQuota_orderly (p : Port) (f : List Byte) (s : State) : s.orderly (actSetQuota p f s).1 := by
  unfold actSetQuota
  repeat' split
  · exact ringLevel_orderly orderly_of_untouched
  all_goals exact s.orderly_refl

theorem actRingStart_orderly (p : Port) (f : List Byte) (s : State) : s.orderly (actRingStart p f s).1 := by
  refine ringLevel_orderly ?_
  split
  · exact s.beginQuiet_orderly _ _
  · exact s.orderly_refl

theorem actRingStop_orderly (p : Port) (f : List Byte) (s : State) : s.orderly (actRingStop p f s).1 := by
  refine ringLevel_orderly ?_
  split
  · exact s.orderly_refl
  · exact orderly_of_untouched
  all_goals exact s.endRingWork_orderly.trans (beginQuiet_orderly _ _ _)

theorem actRingRestart_orderly (p : Port) (f : List Byte) (s : State) : s.orderly (actRingRestart p f s).1 := by
  refine ringLevel_orderly ?_
  split
  case h_4 | h_5 | h_6 | h_7 => exact s.orderly_refl
  all_goals
    exact (s.endRingWork_orderly.trans orderly_of_untouched).trans (enterRing_orderly _ _ _)

theorem actSetRingParameters_orderly (p : Port) (f : List Byte) (s : State) :
    s.orderly (actSetRingParameters p f s).1 := by
  unfold actSetRingParameters
  repeat' split
  · refine ringLevel_orderly ?_
    split <;> exact orderly_of_untouched
  all_goals exact s.orderly_refl

end State

end Sys2Proof.Machine
end

section
/-! SUPPORT. The items, the expiry of a lease and the resets; and then every step keeps the queues within their sizes,
and the lapses that wait. -/

namespace Sys2Proof.Machine

set_option Elab.async false

/-- A lapse is due only while an item of its port is in processing, and completed transactions wait only for a lapse
that is due (R43, R171, R172). -/
def State.lapsesWait (s : State) : Prop :=
  (∀ p, (s.port p).lapseDue = true → s.processingOf p = true) ∧ ∀ p, (s.port p).waitsForLapse

/-- The sizes of the queues and the lapses that wait are kept. -/
structure State.keepsQueues (s t : State) : Prop where
  bounded    : s.bounded → t.bounded
  lapsesWait : s.lapsesWait → t.lapsesWait

namespace State

theorem orderly.keepsQueues {s t : State} (h : s.orderly t) : s.keepsQueues t where
  bounded b := ⟨fun p => (h.ports p).bounded (b.1 p), h.internal b.2⟩
  lapsesWait w := by
    refine ⟨fun p due => ?_, fun p => (h.ports p).waits (w.2 p)⟩
    unfold processingOf
    rw [h.processing]
    exact w.1 p ((h.ports p).due due)

theorem keepsQueues_refl (s : State) : s.keepsQueues s := ⟨id, id⟩

theorem keepsQueues.trans {s t u : State} (h : s.keepsQueues t) (h' : t.keepsQueues u) : s.keepsQueues u :=
  ⟨h'.bounded ∘ h.bounded, h'.lapsesWait ∘ h.lapsesWait⟩

/-! ### Items -/

theorem beginItem_port_self (s : State) (p : Port) (f : List Byte) :
    (s.beginItem p f).port p = { s.port p with requests := (s.port p).requests.tail, reserved := true } :=
  Table.get_modify_self _ _ _

/-- The entry reserved for an answer is free (R40, R41). -/
theorem beginItem_bounded {s : State} {p : Port} {f : List Byte} (room : (s.port p).hasFree = true)
    (h : s.bounded) : (s.beginItem p f).bounded := by
  refine ⟨fun q => ?_, h.2⟩
  by_cases e : p = q
  · subst e
    rw [beginItem_port_self]
    obtain ⟨requests, -, rest⟩ := h.1 p
    have free : _ < 8 := of_decide_eq_true room
    exact ⟨(List.tail_sublist _).length_le.trans requests,
      (Nat.add_le_add_right (Nat.le_add_right _ _) 1).trans free, rest⟩
  · rw [beginItem_port_ne _ _ e]
    exact h.1 q

/-- The answer takes the entry that was reserved for it (R41). -/
theorem finishItem_bounded {s : State} {p : Port} (f : List Byte) (r : Reply)
    (reserved : (s.port p).reserved = true) (h : s.bounded) : (s.finishItem p f r).bounded := by
  refine ⟨fun q => ?_, h.2⟩
  by_cases e : p = q
  · subst e
    rw [finishItem_port_self]
    obtain ⟨requests, responses, rest⟩ := h.1 p
    rw [if_pos reserved] at responses
    refine (HostPort.raise_orderly _ .response).bounded ⟨requests, ?_, rest⟩
    rw [List.length_append, List.length_singleton]
    exact responses
  · rw [finishItem_port_ne _ _ _ e]
    exact h.1 q

/-- Where no lapse is due, none waits (R43). -/
theorem lapsesWait_of_not_due {s : State} (due : ∀ q, (s.port q).lapseDue = false)
    (waits : ∀ q, (s.port q).waitsForLapse) : s.lapsesWait :=
  ⟨fun q d => absurd ((due q).symm.trans d) Bool.false_ne_true, waits⟩

/-- One item from the taking of its frame to its answer (R39, R40, R41). -/
theorem answered_keepsQueues {s u : State} {p : Port} {f : List Byte} (hp : s.pick = some (p, f))
    (h : (s.beginItem p f).orderly u) (r : Reply) : s.keepsQueues (u.finishItem p f r) := by
  obtain ⟨-, -, -, room, due⟩ := pick_some hp
  have begun (q : Port) : ((s.beginItem p f).port q).lapseDue = (s.port q).lapseDue ∧
      ((s.beginItem p f).port q).waitsForLapse = (s.port q).waitsForLapse := by
    by_cases e : p = q
    · subst e; rw [beginItem_port_self]; exact ⟨rfl, rfl⟩
    · rw [beginItem_port_ne _ _ e]; exact ⟨rfl, rfl⟩
  have placed (q : Port) : (u.port q).lapseDue = ((u.finishItem p f r).port q).lapseDue ∧
      (u.port q).waitsForLapse = ((u.finishItem p f r).port q).waitsForLapse := by
    by_cases e : p = q
    · subst e
      rw [finishItem_port_self]
      simp only [HostPort.placeAnswer, HostPort.append, HostPort.raise]
      split <;> exact ⟨rfl, rfl⟩
    · rw [finishItem_port_ne _ _ _ e]; exact ⟨rfl, rfl⟩
  refine ⟨fun b => ?_, fun w => lapsesWait_of_not_due (fun q => Bool.eq_false_iff.mpr fun d => ?_) fun q => ?_⟩
  · refine finishItem_bounded f r ?_ (h.keepsQueues.bounded (beginItem_bounded room b))
    rw [(h.ports p).reserved, beginItem_port_self]
  · rw [← (placed q).1] at d
    have d := (h.ports q).due d
    rw [(begun q).1, due q] at d
    cases d
  · rw [← (placed q).2]
    exact (h.ports q).waits ((begun q).2 ▸ w.2 q)

theorem takeUnknown_keepsQueues (s : State) : s.keepsQueues s.takeUnknown := by
  rcases s.takeUnknown_cases with e | ⟨p, f, r, hp, -, e⟩ <;> rw [e]
  · exact s.keepsQueues_refl
  · exact answered_keepsQueues hp (orderly_refl _) _

/-- A state whose queues are empty of what has to wait. -/
def freshQueues (s : State) : Prop := s.bounded ∧ s.lapsesWait

theorem keepsQueues_of_fresh {s t : State} (h : t.freshQueues) : s.keepsQueues t := ⟨fun _ => h.1, fun _ => h.2⟩

/-- A request command keeps the queues when its effect does, or has no answer and leaves nothing waiting. -/
theorem takeRequest_keepsQueues (s : State) (k : RequestKind) {act : Port → List Byte → Effect}
    (h : ∀ p f (u : State), u.orderly (act p f u).1 ∨ (act p f u).2 = none ∧ (act p f u).1.freshQueues) :
    s.keepsQueues (s.takeRequest k act) := by
  have settled : s.keepsQueues s.settleLapses.settleUnknown :=
    s.settleLapses_orderly.keepsQueues.trans <|
      takeUnknowns_induct (P := s.settleLapses.keepsQueues) (fun u h => h.trans u.takeUnknown_keepsQueues) 16 _
        (keepsQueues_refl _)
  rcases s.takeRequest_cases k act with e | ⟨p, f, hp, -, e⟩ <;> rw [e]
  · exact settled
  generalize s.settleLapses.settleUnknown = u at settled hp
  refine settled.trans ?_
  have checks : (u.beginItem p f).orderly (checked k p f (act p f) (u.beginItem p f)).1 ∨
      (checked k p f (act p f) (u.beginItem p f)).2 = none ∧
        (checked k p f (act p f) (u.beginItem p f)).1.freshQueues := by
    rcases checked_cases k p f (act p f) (u.beginItem p f) with ⟨-, -, c⟩ | ⟨-, -, c⟩ | ⟨-, -, c⟩ <;> rw [c]
    · exact .inl (orderly_refl _)
    · exact .inl (orderly_refl _)
    · exact h p f _
  rcases u.runItem_cases p f (checked k p f (act p f)) with ⟨r, hr, e⟩ | ⟨hr, e⟩ <;> rw [e]
  · rcases checks with o | ⟨none, -⟩
    · exact answered_keepsQueues hp o r
    · rw [none] at hr; cases hr
  · rcases checks with o | ⟨-, fresh⟩
    · obtain ⟨hproc, -, -, room, due⟩ := pick_some hp
      refine ⟨fun b => o.keepsQueues.bounded (beginItem_bounded room b), fun w => ?_⟩
      refine o.keepsQueues.lapsesWait ⟨fun q d => ?_, fun q => ?_⟩
      · by_cases e : p = q
        · subst e; exact beq_self_eq_true p
        · rw [beginItem_port_ne _ _ e, due q] at d; cases d
      · by_cases e : p = q
        · subst e; rw [beginItem_port_self]; exact w.2 p
        · rw [beginItem_port_ne _ _ e]; exact w.2 q
    · exact keepsQueues_of_fresh fresh

/-! ### Lease expiries and resets -/

/-- A lapse carried out is due no more (R172). -/
theorem lapse_not_due (s : State) (p : Port) : ((s.lapse p).port p).lapseDue = false := by
  have stays (u : State) (t : Txn) (h : (u.port p).lapseDue = false) : ((u.finish p t).port p).lapseDue = false :=
    Bool.eq_false_iff.mpr fun d => Bool.eq_false_iff.mp h (((u.finish_orderly p t).ports p).due d)
  rcases s.lapse_cases p with ⟨-, e⟩ | ⟨-, e⟩ <;> rw [e]
  all_goals
    refine finishEnded_induct (P := fun u => (u.port p).lapseDue = false) stays _ ?_
    rw [modPort_modPort, modPort_port_self]

/-- A lease expiry waits for its port's item, or is carried out at once (R43, R171). -/
theorem leaseExpiry_keepsQueues (s : State) (p : Port) :
    s.keepsQueues ((s.modPort p HostPort.expire).grantLapse p) := by
  have expired : (s.port p).expire.reserved = (s.port p).reserved ∧ ((s.port p).bounded → (s.port p).expire.bounded) ∧
      ((s.port p).waitsForLapse → (s.port p).expire.waitsForLapse) := by
    unfold HostPort.expire
    split
    · exact ⟨rfl, id, fun _ _ => rfl⟩
    · exact ⟨rfl, id, id⟩
  have port (q : Port) : (s.modPort p HostPort.expire).port q = if p = q then (s.port p).expire else s.port q := by
    by_cases e : p = q
    · subst e; rw [modPort_port_self, if_pos rfl]
    · rw [modPort_port_ne _ _ e, if_neg e]
  have granted := grantLapse_orderly (s.modPort p HostPort.expire) p
  refine ⟨fun b => granted.keepsQueues.bounded ⟨fun q => ?_, b.2⟩, fun w => ?_⟩
  · rw [port]
    split
    · exact expired.2.1 (b.1 p)
    · exact b.1 q
  · have waits (q : Port) : ((s.modPort p HostPort.expire).port q).waitsForLapse := by
      rw [port]
      split
      · exact expired.2.2 (w.2 p)
      · exact w.2 q
    have other (q : Port) (hq : p ≠ q) (d : ((s.modPort p HostPort.expire).port q).lapseDue = true) :
        s.processingOf q = true := by
      rw [port, if_neg hq] at d
      exact w.1 q d
    refine ⟨fun q d => ?_, fun q => (granted.ports q).waits (waits q)⟩
    have still : ((s.modPort p HostPort.expire).grantLapse p).processingOf q = s.processingOf q := by
      unfold processingOf
      rw [granted.processing]
      rfl
    rw [still]
    by_cases e : p = q
    · subst e
      rcases (s.modPort p HostPort.expire).grantLapse_cases p with ⟨busy | idle, e⟩ | ⟨-, -, e⟩
      · exact busy
      · rw [e, idle] at d; cases d
      · rw [e, lapse_not_due] at d; cases d
    · exact other q e ((granted.ports q).due d)

theorem resetWith_freshQueues (s : State) (cause : ResetCause) (straps : BitVec 2) (low : Bool) :
    (s.resetWith cause straps low).freshQueues := by
  have port (q : Port) : (s.resetWith cause straps low).port q = { HostPort.reset cause (straps.toNat == q.val) with
      heldOver := (s.port q).heldOver || (s.port q).txn.isSome } := Table.get_tabulate _ q
  refine ⟨⟨fun q => ?_, .nil⟩, lapsesWait_of_not_due (fun q => ?_) fun q => ?_⟩ <;> rw [port]
  · exact HostPort.reset_bounded _ _ _
  · rfl
  · exact fun n => absurd rfl n

end State

/-! ### Every command -/

/-- Every command keeps the queues within their sizes, and the lapses that wait. -/
theorem exec_keepsQueues {c : Instr} {s t : State} (h : exec c s = .next t) : s.keepsQueues t := by
  have request (k : RequestKind) {act : Port → List Byte → Effect} (e : t = s.takeRequest k act)
      (ha : ∀ p f (u : State), u.orderly (act p f u).1) : s.keepsQueues t :=
    e ▸ s.takeRequest_keepsQueues k fun p f u => .inl (ha p f u)
  cases c with
  | request | fetch | drain | post | status | take | serviceDone | eventset | unknownTransaction =>
    cases h; exact (s.transact_orderly _ _ _ _).keepsQueues
  | openStream | alter | close | subscribe | unsubscribe | handover =>
    cases h; exact request _ rfl (State.editing_orderly _)
  | streamQuery => cases h; exact request _ rfl State.actStreamQuery_orderly
  | occupancyQuery => cases h; exact request _ rfl fun _ _ u => u.orderly_refl
  | nodeQuery => cases h; exact request _ rfl State.actNodeQuery_orderly
  | flush => cases h; exact request _ rfl fun _ _ _ => State.orderly_of_untouched
  | attach => cases h; exact request _ rfl State.actAttach_orderly
  | detach => cases h; exact request _ rfl State.actDetach_orderly
  | setQuota => cases h; exact request _ rfl State.actSetQuota_orderly
  | ringStart => cases h; exact request _ rfl State.actRingStart_orderly
  | ringStop => cases h; exact request _ rfl State.actRingStop_orderly
  | ringRestart => cases h; exact request _ rfl State.actRingRestart_orderly
  | setRingParameters => cases h; exact request _ rfl State.actSetRingParameters_orderly
  | deviceReset straps =>
    cases h
    refine s.takeRequest_keepsQueues _ fun p f u => ?_
    unfold actDeviceReset ringLevel
    split
    · exact .inr ⟨rfl, u.resetWith_freshQueues _ _ _⟩
    · exact .inl u.orderly_refl
  | portEntry =>
    simp only [exec, execPortEntry] at h
    split at h <;> cases h
    · exact (s.internalEdit_orderly _).keepsQueues
    all_goals exact s.keepsQueues_refl
  | nodeEntryLost =>
    simp only [exec, execNodeEntryLost] at h
    split at h <;> cases h
    · exact (s.internalEdit_orderly _).keepsQueues
    all_goals exact s.keepsQueues_refl
  | nodeEntryNodeChanged =>
    simp only [exec, execNodeEntryNodeChanged] at h
    split at h <;> cases h
    · exact (s.internalEdit_orderly _).keepsQueues
    all_goals exact s.keepsQueues_refl
  | gatherCounterExpiry => cases h; split <;> exact (State.orderly_of_untouched).keepsQueues
  | freeze =>
    cases h
    unfold State.grantFreeze
    repeat' split
    all_goals exact (State.orderly_of_untouched).keepsQueues
  | reconciliation =>
    cases h
    repeat' split
    · exact (s.reconcile_orderly _).keepsQueues
    all_goals exact s.keepsQueues_refl
  | hubCycle =>
    cases h
    split
    · exact s.sendCycle_orderly.keepsQueues
    · exact s.keepsQueues_refl
  | quietCyclesEnd =>
    cases h
    split
    · exact s.endQuiet_orderly.keepsQueues
    · exact s.keepsQueues_refl
  | returnEvaluation cell arrival =>
    cases h
    repeat' split
    · exact s.keepsQueues_refl
    · next r _ _ _ =>
      refine State.keepsQueues.trans (t := s.follow r arrival.octets (cell - r.start)) ?_
        (State.evaluate_orderly _ _ _ _ _).keepsQueues
      unfold State.follow
      split <;> exact (State.orderly_of_untouched).keepsQueues
    · exact s.keepsQueues_refl
  | returnWindowExpiry =>
    cases h
    split
    · exact s.keepsQueues_refl
    · exact (s.evaluate_orderly _ _ _ _).keepsQueues
  | beaconReceived octets =>
    cases h
    repeat' split
    · exact s.keepsQueues_refl
    · exact (s.evaluate_orderly _ _ _ _).keepsQueues
    · exact s.keepsQueues_refl
  | leaseExpiry p => cases h; exact s.leaseExpiry_keepsQueues p
  | lapse p => cases h; exact (s.grantLapse_orderly p).keepsQueues
  | powerOnReset | pinReset => cases h; exact State.keepsQueues_of_fresh (s.resetWith_freshQueues _ _ _)
  | nresetRelease => cases h; exact (State.orderly_of_untouched).keepsQueues

/-- Every step keeps the queues within their sizes, and the lapses that wait. -/
theorem step_keepsQueues {s t : State} (h : step s = .next t) : s.keepsQueues t := by
  unfold step at h
  split at h
  · cases h; exact s.takeUnknown_keepsQueues
  · next c rest _ =>
    have queued : s.orderly { s with pending := rest } := State.orderly_of_untouched
    exact queued.keepsQueues.trans (exec_keepsQueues h)

/-! ### The internal edit list -/

/-- What an entry is for: a port or a position (R57). -/
def InternalEntry.subject : InternalEntry → Port ⊕ Pos
  | .port p => .inl p
  | .lost p | .changed p _ => .inr p

theorem InternalEntry.sameSubject_iff (a b : InternalEntry) : a.sameSubject b = true ↔ a.subject = b.subject := by
  cases a <;> cases b <;> simp [sameSubject, subject]

/-- Entries for distinct subjects number at most four ports and fifteen positions (R57). -/
theorem distinctEntries_length {l : List InternalEntry} (h : distinctEntries l) : l.length ≤ 19 := by
  have distinct : (l.map InternalEntry.subject).Nodup := by
    refine List.pairwise_map.mpr (h.imp fun {a b} hab e => ?_)
    exact Bool.false_ne_true (hab.symm.trans ((a.sameSubject_iff b).mpr e))
  simpa using distinct.length_le_card

/-- Settles O4: the subjects of the internal entries are few, and every step keeps the queues within their sizes. -/
theorem queuesStayBounded : Obligations.QueuesStayBounded :=
  fun _ hs => ⟨distinctEntries_length hs.2, fun _ h => (step_keepsQueues h).bounded hs⟩

end Sys2Proof.Machine
end

section
/-! SUPPORT. The states in which each block works (R83, R117, R118, R131, R141): what leaves all of them, and what ends
the ring's work. -/

namespace Sys2Proof.Machine

set_option Elab.async false

/-- A turnover is in flight only in RUNNING, numbering is under way only in NUMBERING, verification, of distinct
positions, only in RUNNING, and a NUMBER or a verification exchange is outstanding only with them (R83, R118, R131,
R141). -/
structure State.inPhase (s : State) : Prop where
  flight       : s.turnover.inFlight = true → s.ring.state = .running
  numbering    : ∀ k, s.nodes.procedure = .numbering k → s.ring.state = .numbering
  verifying    : ∀ l, s.nodes.procedure = .verifying l → s.ring.state = .running ∧ l.Nodup
  number       : ∀ x, s.control.exchange = some x → x.message.isNumber = true → ∃ k, s.nodes.procedure = .numbering k
  verification : ∀ x, s.control.exchange = some x → x.user = .verification → s.ring.state = .running

theorem State.coherent_iff {s : State} : s.coherent ↔ s.inPhase ∧ s.lapsesWait :=
  ⟨fun ⟨h1, h2, h3, h4, h5, h6, h7⟩ => ⟨⟨h1, h2, h3, h4, h5⟩, h6, h7⟩,
    fun ⟨⟨h1, h2, h3, h4, h5⟩, h6, h7⟩ => ⟨h1, h2, h3, h4, h5, h6, h7⟩⟩

/-- Whether a turnover is in flight, the ring's state, the procedure under way and the outstanding exchange are as
they were. -/
structure State.samePhase (s t : State) : Prop where
  flight    : t.turnover.inFlight = s.turnover.inFlight := by rfl
  state     : t.ring.state = s.ring.state := by rfl
  procedure : t.nodes.procedure = s.nodes.procedure := by rfl
  exchange  : t.control.exchange = s.control.exchange := by rfl

/-- Gathering begins from IDLE, with no turnover in flight before or after (R67). -/
@[simp] theorem Turnover.startGathering_inFlight (t : Turnover) (running : Bool) (window : Nat) :
    (t.startGathering running window).inFlight = t.inFlight := by
  rcases t.startGathering_cases running window with ⟨-, e⟩ | ⟨h, -, -, e⟩ | ⟨h, -, e⟩ <;> rw [e]
  all_goals rw [inFlight, inFlight, h]; rfl

/-- Distribution that goes on stays in flight (R78, R79). -/
@[simp] theorem Turnover.advance_inFlight (t : Turnover) (ready : Pos → Bool) :
    (t.advance ready).inFlight = t.inFlight := by
  unfold advance
  split
  · next h =>
    dsimp only
    rw [inFlight, inFlight, h]
    dsimp only
    split <;> rfl
  · rfl

@[simp] theorem Turnover.flushed_inFlight (t : Turnover) (batchEmpty : Bool) :
    (t.flushed batchEmpty).inFlight = t.inFlight := by
  unfold flushed
  repeat' split
  all_goals rfl

namespace State

theorem samePhase.trans {s t u : State} (h : s.samePhase t) (h' : t.samePhase u) : s.samePhase u :=
  ⟨h'.flight.trans h.flight, h'.state.trans h.state, h'.procedure.trans h.procedure, h'.exchange.trans h.exchange⟩

theorem samePhase.inPhase {s t : State} (h : s.samePhase t) (hs : s.inPhase) : t.inPhase where
  flight := by rw [h.flight, h.state]; exact hs.flight
  numbering := by rw [h.procedure, h.state]; exact hs.numbering
  verifying := by rw [h.procedure, h.state]; exact hs.verifying
  number := by rw [h.exchange, h.procedure]; exact hs.number
  verification := by rw [h.exchange, h.state]; exact hs.verification

/-! ### What leaves the phases -/

theorem noteBatch_samePhase (s : State) : s.samePhase s.noteBatch where
  flight := by
    simp only [noteBatch]
    split
    · exact Turnover.startGathering_inFlight _ _ _
    · rfl

theorem changeNodes_samePhase (s : State) (ps : List Pos) (f : NodeEntry → NodeEntry) (c : NodeCause) :
    s.samePhase (s.changeNodes ps f c) :=
  changeNodes_induct (P := s.samePhase) (fun _ _ h => h.trans {}) ps s {}

theorem finish_samePhase (s : State) (p : Port) (t : Txn) : s.samePhase (s.finish p t) := by
  constructor <;> simp

theorem finishEnded_samePhase (s : State) (p : Port) : s.samePhase (s.finishEnded p) :=
  finishEnded_induct (P := s.samePhase) (fun u t h => h.trans (u.finish_samePhase p t)) s {}

theorem lapse_samePhase (s : State) (p : Port) : s.samePhase (s.lapse p) := by
  rcases s.lapse_cases p with ⟨-, e⟩ | ⟨-, e⟩ <;> rw [e]
  all_goals exact samePhase.trans {} (finishEnded_samePhase _ p)

theorem grantLapse_samePhase (s : State) (p : Port) : s.samePhase (s.grantLapse p) := by
  rcases s.grantLapse_cases p with ⟨-, e⟩ | ⟨-, -, e⟩ <;> rw [e]
  · exact {}
  · exact s.lapse_samePhase p

theorem settleLapses_samePhase (s : State) : s.samePhase s.settleLapses := by
  refine settleLapses_induct (P := s.samePhase) (fun u p h => h.trans ?_) s {}
  unfold settleLapse
  split
  · exact u.lapse_samePhase p
  · exact {}

theorem transact_samePhase (s : State) (k : TxnKind) (p : Port) (bits : List Bool) (release : Bool) :
    s.samePhase (s.transact k p bits release) := by
  have released (u : State) : u.samePhase (u.release p) := by constructor <;> simp
  unfold transact
  split
  · exact {}
  · have clocks : s.samePhase ((s.grantLapse p).clocked p bits) := (s.grantLapse_samePhase p).trans {}
    dsimp only
    repeat' split
    · exact clocks.trans (released _)
    · exact clocks
    · exact s.grantLapse_samePhase p

theorem extract_samePhase (s : State) (r : CycleRecord) (cls : ReturnClass) (drains : List (List DrainPart)) :
    s.samePhase (s.extract r cls drains) := by
  unfold extract
  split
  · exact {}
  · exact handle_induct (P := s.samePhase) (fun u d h => h.trans (u.transact_samePhase _ _ _ _))
      (fun _ _ _ h => h.trans {}) _ _ s {}

theorem advanceWork_samePhase (s : State) : s.samePhase s.advanceWork where
  flight := Turnover.advance_inFlight _ _

theorem takeUnknown_samePhase (s : State) : s.samePhase s.takeUnknown := by
  rcases s.takeUnknown_cases with e | ⟨p, f, r, -, -, e⟩ <;> rw [e] <;> exact {}

/-- A request command keeps the phases when its effect does. -/
theorem takeRequest_inPhase {s : State} (k : RequestKind) {act : Port → List Byte → Effect}
    (h : ∀ p f (u : State), u.inPhase → (act p f u).1.inPhase) (hs : s.inPhase) : (s.takeRequest k act).inPhase := by
  have settled : s.samePhase s.settleLapses.settleUnknown :=
    s.settleLapses_samePhase.trans <|
      takeUnknowns_induct (P := s.settleLapses.samePhase) (fun u h => h.trans u.takeUnknown_samePhase) 16 _ {}
  rcases s.takeRequest_cases k act with e | ⟨p, f, -, -, e⟩ <;> rw [e]
  · exact settled.inPhase hs
  generalize s.settleLapses.settleUnknown = u at settled
  have begun : (u.beginItem p f).inPhase := samePhase.inPhase {} (settled.inPhase hs)
  have checks : (checked k p f (act p f) (u.beginItem p f)).1.inPhase := by
    rcases checked_cases k p f (act p f) (u.beginItem p f) with ⟨-, -, c⟩ | ⟨-, -, c⟩ | ⟨-, -, c⟩ <;> rw [c]
    · exact begun
    · exact begun
    · exact h p f _ begun
  rcases u.runItem_cases p f (checked k p f (act p f)) with ⟨r, -, e⟩ | ⟨-, e⟩ <;> rw [e]
  · exact samePhase.inPhase {} checks
  · exact checks

/-! ### The ring's work over -/

/-- No turnover is in flight, neither numbering nor verification under way, and no exchange of theirs outstanding. -/
structure ringIdle (s : State) : Prop where
  flight       : s.turnover.inFlight = false
  numbering    : ∀ k, s.nodes.procedure ≠ .numbering k
  verifying    : ∀ l, s.nodes.procedure ≠ .verifying l
  number       : ∀ x, s.control.exchange = some x → x.message.isNumber = false
  verification : ∀ x, s.control.exchange = some x → x.user ≠ .verification

/-- A state with the ring's work over is in phase in every ring state. -/
theorem ringIdle.inPhase {s : State} (h : s.ringIdle) : s.inPhase where
  flight f := absurd (h.flight.symm.trans f) Bool.false_ne_true
  numbering k e := absurd e (h.numbering k)
  verifying l e := absurd e (h.verifying l)
  number x e n := absurd ((h.number x e).symm.trans n) Bool.false_ne_true
  verification x e v := absurd v (h.verification x e)

theorem ringIdle.congr {s t : State} (h : s.ringIdle) (flight : t.turnover.inFlight = s.turnover.inFlight := by rfl)
    (procedure : t.nodes.procedure = s.nodes.procedure := by rfl)
    (exchange : t.control.exchange = s.control.exchange := by rfl) : t.ringIdle where
  flight := flight.trans h.flight
  numbering := by rw [procedure]; exact h.numbering
  verifying := by rw [procedure]; exact h.verifying
  number := by rw [exchange]; exact h.number
  verification := by rw [exchange]; exact h.verification

theorem ringIdle.enterRing {s : State} (h : s.ringIdle) (st : RingState) (r : RingReason) :
    (s.enterRing st r).ringIdle :=
  h.congr

/-- Neither RUNNING nor NUMBERING, the ring's work is over (R83, R118, R131, R141). -/
theorem inPhase.ringIdle {s : State} (h : s.inPhase) (running : s.ring.state ≠ .running)
    (numbering : s.ring.state ≠ .numbering) : s.ringIdle where
  flight := Bool.eq_false_iff.mpr fun f => running (h.flight f)
  numbering k e := numbering (h.numbering k e)
  verifying l e := running (h.verifying l e).1
  number x e := Bool.eq_false_iff.mpr fun n => by
    obtain ⟨k, hk⟩ := h.number x e n
    exact numbering (h.numbering k hk)
  verification x e v := running (h.verification x e v)

/-- With no exchange outstanding and neither procedure under way, only a turnover is left of the ring's work. -/
theorem ringIdle_of_none {s : State} (flight : s.turnover.inFlight = false) (exchange : s.control.exchange = none)
    (numbering : ∀ k, s.nodes.procedure ≠ .numbering k := by nofun)
    (verifying : ∀ l, s.nodes.procedure ≠ .verifying l := by nofun) : s.ringIdle :=
  ⟨flight, numbering, verifying, fun _ e => absurd (exchange.symm.trans e) nofun,
    fun _ e => absurd (exchange.symm.trans e) nofun⟩

/-- A drop of exchanges leaves none that was not outstanding, and none of its users (R117). -/
theorem dropExchange_exchange {s : State} {which : User → Bool} {x : Exchange}
    (h : (s.dropExchange which).control.exchange = some x) : s.control.exchange = some x ∧ which x.user = false := by
  cases d : s.control.drops which with
  | true =>
    rw [dropExchange_of_drops d] at h
    cases h
  | false =>
    rw [dropExchange_of_keeps d] at h
    refine ⟨h, Bool.eq_false_iff.mpr fun w => ?_⟩
    exact Bool.eq_false_iff.mp d (Control.drops_iff.mpr ⟨x, h, w⟩)

theorem abandon_exchange {s : State} {x : Exchange} (h : s.abandon.control.exchange = some x) :
    s.control.exchange = some x := by
  unfold abandon at h
  split at h
  · exact (dropExchange_exchange (which := (· == .distribution)) h).1
  · exact h

/-- With the exchanges of the round and of the refresh dropped, the round ended and a turnover abandoned, the ring's
work is over (R83, R117, R125, R142). -/
theorem abandoned_ringIdle {u : State} {which : User → Bool} (h : u.inPhase) (hrun : u.ring.state = .running)
    (hw : which .verification = true) : (u.dropExchange which).roundEnded.abandon.ringIdle := by
  have dropped {x : Exchange} (e : (u.dropExchange which).roundEnded.abandon.control.exchange = some x) :
      u.control.exchange = some x ∧ which x.user = false :=
    dropExchange_exchange (abandon_exchange (s := (u.dropExchange which).roundEnded) e)
  have idle : (u.dropExchange which).roundEnded.abandon.nodes.procedure = .idle := by
    rw [abandon_frame]
    rfl
  refine ⟨abandon_not_inFlight _, fun k e => ?_, fun l e => ?_, fun x e => Bool.eq_false_iff.mpr fun n => ?_,
    fun x e v => ?_⟩
  · cases idle.symm.trans e
  · cases idle.symm.trans e
  · obtain ⟨k, hk⟩ := h.number x (dropped e).1 n
    cases hrun.symm.trans (h.numbering k hk)
  · have kept := (dropped e).2
    rw [v, hw] at kept
    cases kept

/-- The ring's work is over as the ring leaves RUNNING (R102). -/
theorem leaveRunning_ringIdle {s : State} (h : s.inPhase) (hrun : s.ring.state = .running) (failing : Bool) :
    (s.leaveRunning failing).ringIdle := by
  have running : s.running = true := by rw [State.running, hrun]; rfl
  have fails : s.samePhase (if failing then s.failVerification else s) := by
    split
    · exact changeNodes_samePhase _ _ _ _
    · exact {}
  unfold leaveRunning
  rw [if_pos running]
  exact abandoned_ringIdle (fails.inPhase h) (fails.state.trans hrun) rfl

/-- A Ring Stop or Ring Restart ends the ring's work, whatever it is (R107, R109). -/
theorem endRingWork_ringIdle {s : State} (h : s.inPhase) : s.endRingWork.ringIdle := by
  refine ⟨?_, nofun, nofun, fun x e => ?_, fun x e => ?_⟩
  · show (s.leaveRunning false).turnover.inFlight = false
    by_cases hrun : s.ring.state = .running
    · exact (leaveRunning_ringIdle h hrun false).flight
    · rw [leaveRunning_of_not_running false (by simpa [running] using hrun)]
      exact Bool.eq_false_iff.mpr fun f => hrun (h.flight f)
  all_goals exact absurd (dropExchange_exchange (which := fun _ => true) e).2 nofun

/-- Numbering begins with the ring's work over (R102, R109, R131). -/
theorem numbering_begins {s t : State} (h : s.ringIdle) (flight : t.turnover.inFlight = s.turnover.inFlight := by rfl)
    (state : t.ring.state = .numbering := by rfl) (procedure : t.nodes.procedure = .numbering 0 := by rfl)
    (exchange : t.control.exchange = s.control.exchange := by rfl) : t.inPhase where
  flight f := absurd (h.flight.symm.trans (flight.symm.trans f)) Bool.false_ne_true
  numbering _ _ := state
  verifying l e := by cases procedure.symm.trans e
  number x _ _ := ⟨0, procedure⟩
  verification x e v := absurd v (h.verification x (exchange.symm.trans e))

end State

end Sys2Proof.Machine
end

section
/-! SUPPORT. The phases across the conclusions of the exchanges, the return of a cycle and the sending of one; and then
every step keeps them (R83, R117, R118, R131, R141). -/

namespace Sys2Proof.Machine

set_option Elab.async false

/-- Of the procedures only verification goes on to its next position (R141). -/
theorem Procedure.verifyNext_numbering {t : Procedure} {k : Nat} (h : t.verifyNext = .numbering k) :
    t = .numbering k := by
  unfold verifyNext at h
  split at h <;> cases h
  rfl

/-- What is left of a round is its tail. -/
theorem Procedure.verifyNext_verifying {t : Procedure} {l : List Pos} (h : t.verifyNext = .verifying l) :
    ∃ p, t = .verifying (p :: l) := by
  unfold verifyNext at h
  split at h <;> cases h
  exact ⟨_, rfl⟩

/-- A message without a position is a NUMBER (R118). -/
theorem Message.position_eq_none {m : Message} : m.position = none ↔ m.isNumber = true := by
  cases m <;> simp [Message.position, Message.isNumber]

namespace State

/-! ### The conclusions of an exchange -/

theorem closeExchange_inPhase {s : State} (h : s.inPhase) : s.closeExchange.inPhase :=
  ⟨h.flight, h.numbering, h.verifying, nofun, nofun⟩

/-- An exchange goes on with another message of its user, which is no NUMBER (R116). -/
theorem retryExchange_inPhase {s : State} {x y : Exchange} (h : s.inPhase) (hx : s.control.exchange = some x)
    (user : y.user = x.user) (number : y.message.isNumber = false) : (s.retryExchange y).inPhase where
  flight := h.flight
  numbering := h.numbering
  verifying := h.verifying
  number z e n := by
    cases e
    exact absurd (number.symm.trans n) Bool.false_ne_true
  verification z e v := by
    cases e
    exact h.verification x hx (user.symm.trans v)

/-- With no exchange outstanding and neither procedure under way, only a turnover binds the ring's state. -/
theorem inPhase_of_none {s : State} (flight : s.turnover.inFlight = true → s.ring.state = .running)
    (exchange : s.control.exchange = none) (numbering : ∀ k, s.nodes.procedure ≠ .numbering k := by nofun)
    (verifying : ∀ l, s.nodes.procedure ≠ .verifying l := by nofun) : s.inPhase where
  flight := flight
  numbering k e := absurd e (numbering k)
  verifying l e := absurd e (verifying l)
  number _ e := absurd (exchange.symm.trans e) nofun
  verification _ e := absurd (exchange.symm.trans e) nofun

/-- While numbering is under way no turnover is in flight (R83, R131). -/
theorem inPhase.idle_of_numbering {s : State} (h : s.inPhase) {k : Nat} (hk : s.nodes.procedure = .numbering k) :
    s.turnover.inFlight = false :=
  Bool.eq_false_iff.mpr fun f => by cases (h.flight f).symm.trans (h.numbering k hk)

theorem numberingFailed_inPhase {s : State} (h : s.inPhase) (hx : s.control.exchange = none) :
    s.numberingFailed.inPhase := by
  unfold numberingFailed
  split
  · next k hk =>
    split
    · exact ((ringIdle_of_none (s := { s with nodes := { s.nodes with procedure := .idle, retained := none } })
        (h.idle_of_numbering hk) hx).enterRing _ _).inPhase
    · exact ⟨h.flight, fun _ _ => h.numbering k hk, nofun, fun _ e => absurd (hx.symm.trans e) nofun, h.verification⟩
  all_goals exact h

/-- A NUMBER that counted nodes ends numbering (R132, R133). -/
theorem numberingReturned_inPhase {s : State} (flight : s.turnover.inFlight = false) (hx : s.control.exchange = none)
    (c delay : Nat) : (s.numberingReturned c delay).inPhase := by
  have counted (n : Fin 16) : { s with
      nodes := s.nodes.numbered n, ring := { s.ring with latency := some delay } : State }.ringIdle := by
    refine ringIdle_of_none flight hx (fun k e => ?_) fun l e => ?_
    all_goals
      simp only [Nodes.numbered] at e
      repeat' split at e
      all_goals cases e
  unfold numberingReturned
  split
  · dsimp only
    repeat' split
    · exact (counted _).inPhase
    · exact ((counted _).enterRing _ _).inPhase
    · exact ((counted _).enterRing _ _).inPhase
  · exact ((ringIdle_of_none (s := { s with nodes := { s.nodes with procedure := .idle, retained := none } })
      flight hx).enterRing _ _).inPhase

theorem identifyNext_inPhase {s : State} (h : s.inPhase) (hx : s.control.exchange = none) (p : Pos) :
    (s.identifyNext p).inPhase := by
  unfold identifyNext
  repeat' split
  · exact inPhase_of_none h.flight hx
  · exact inPhase_of_none h.flight hx
  · exact inPhase_of_none (fun _ => rfl) hx

theorem updateNode_samePhase (s : State) (p : Pos) (f : NodeEntry → NodeEntry) : s.samePhase (s.updateNode p f) := {}

theorem changeNode_samePhase (s : State) (p : Pos) (f : NodeEntry → NodeEntry) (c : NodeCause) :
    s.samePhase (s.changeNode p f c) := {}

theorem verifyNext_inPhase {s : State} (h : s.inPhase) : s.verifyNext.inPhase where
  flight := h.flight
  numbering k e := h.numbering k (Procedure.verifyNext_numbering e)
  verifying l e := by
    obtain ⟨p, hp⟩ := Procedure.verifyNext_verifying e
    obtain ⟨running, distinct⟩ := h.verifying _ hp
    exact ⟨running, distinct.of_cons⟩
  number x e n := by
    obtain ⟨k, hk⟩ := h.number x e n
    exact ⟨k, by show s.nodes.procedure.verifyNext = _; rw [hk]; rfl⟩
  verification := h.verification

/-- The ring halts out of RUNNING with its work over (R102). -/
theorem halt_inPhase {s : State} (h : s.inPhase) (hrun : s.ring.state = .running) (r : RingReason) :
    (s.halt r).inPhase := ((leaveRunning_ringIdle h hrun true).enterRing _ _).inPhase

theorem verified_inPhase {s : State} (h : s.inPhase) (hrun : s.ring.state = .running) (p : Pos) (i : Identity)
    (held : Option Epoch) : (s.verified p i held).inPhase := by
  unfold verified
  split
  · exact verifyNext_inPhase ((s.changeNode_samePhase p _ _).inPhase h)
  · exact halt_inPhase (verifyNext_inPhase h) hrun _

theorem refreshFailed_samePhase (s : State) (p : Pos) : s.samePhase (s.refreshFailed p) := by
  unfold refreshFailed
  dsimp only
  split <;> exact {}

theorem refreshAcked_samePhase (s : State) : s.samePhase s.refreshAcked := by
  unfold refreshAcked
  repeat' split
  all_goals exact {}

/-- An exchange given up concludes for its user (R77, R124, R136, R141). -/
theorem giveUp_inPhase {s : State} (h : s.inPhase) (hx : s.control.exchange = none) (u : User) (p : Pos) :
    (s.giveUp u p).inPhase := by
  cases u with
  | numbering => exact h
  | identification => exact identifyNext_inPhase ((s.updateNode_samePhase p _).inPhase h) hx p
  | verification => exact verifyNext_inPhase ((s.changeNode_samePhase p _ _).inPhase h)
  | distribution => exact samePhase.inPhase (s := s) {} h
  | refresh => exact (s.refreshFailed_samePhase p).inPhase h

theorem attemptFailed_inPhase {s : State} {x : Exchange} (h : s.inPhase) (hx : s.control.exchange = some x) :
    (s.attemptFailed x).inPhase := by
  unfold attemptFailed
  split
  · exact numberingFailed_inPhase (closeExchange_inPhase h) rfl
  · next p hp =>
    split
    · refine retryExchange_inPhase h hx rfl (Bool.eq_false_iff.mpr fun n => ?_)
      rw [Message.position_eq_none.mpr n] at hp
      cases hp
    · exact giveUp_inPhase (closeExchange_inPhase h) rfl _ _

theorem nakHeard_inPhase {s : State} {x : Exchange} (h : s.inPhase) (hx : s.control.exchange = some x) :
    (s.nakHeard x).inPhase := by
  unfold nakHeard
  split
  · exact h
  next p _ =>
  have again : (s.retryExchange { x with failed := x.failed + 1, message := s.firstPart x p }).inPhase :=
    retryExchange_inPhase h hx rfl rfl
  split
  · exact giveUp_inPhase (closeExchange_inPhase h) rfl _ _
  dsimp only
  repeat' split
  · exact samePhase.inPhase {} again
  · exact samePhase.inPhase {} (closeExchange_inPhase h)
  · exact samePhase.inPhase {} again
  all_goals exact again

theorem ackHeard_inPhase {s : State} (h : s.inPhase) (x : Exchange) : (s.ackHeard x).inPhase := by
  have closed := closeExchange_inPhase h
  unfold ackHeard
  split
  · exact samePhase.inPhase {} closed
  · exact (refreshAcked_samePhase _).inPhase closed
  all_goals exact closed

theorem identityHeard_inPhase {s : State} {x : Exchange} (h : s.inPhase) (hx : s.control.exchange = some x)
    (i : Identity) (held : Option Epoch) : (s.identityHeard x i held).inPhase := by
  have closed := closeExchange_inPhase h
  unfold identityHeard
  split
  · exact identifyNext_inPhase ((updateNode_samePhase _ _ _).inPhase closed) rfl _
  · next user _ => exact verified_inPhase closed (h.verification x hx user) _ _ _
  · exact closed

/-- Only a NUMBER is heard to have counted nodes (R118). -/
theorem hear_number {m : Message} {n : Byte} {cls : ReturnClass} {c : Nat} (h : hear m n cls = .number c) :
    m.isNumber = true := by
  unfold hear hearField at h
  split at h
  · split at h
    · cases h
    · split at h
      · rfl
      all_goals repeat' split at h
      all_goals cases h
  all_goals cases h

/-- The Control Channel at a return keeps the phases (R115 to R118). -/
theorem channel_inPhase {s : State} (h : s.inPhase) (r : CycleRecord) (cls : ReturnClass) (delay : Nat) :
    (s.channel r cls delay).inPhase := by
  unfold channel
  split
  · next x a hx _ =>
    split
    · split
      · exact attemptFailed_inPhase h hx
      · next c heard =>
        obtain ⟨k, hk⟩ := h.number x hx (hear_number heard)
        exact numberingReturned_inPhase (s := s.closeExchange) (h.idle_of_numbering hk) rfl c delay
      · exact identityHeard_inPhase h hx _ _
      · exact ackHeard_inPhase h x
      · exact nakHeard_inPhase h hx
    · exact h
  · exact h

/-! ### The return of a cycle -/

/-- A verification round is over distinct positions, in RUNNING (R141). -/
theorem beginVerification_inPhase {s : State} (h : s.ringIdle) (hrun : s.ring.state = .running) :
    s.beginVerification.inPhase where
  flight _ := hrun
  numbering k e := by
    simp only [beginVerification] at e
    split at e <;> cases e
  verifying l e := by
    simp only [beginVerification] at e
    split at e <;> cases e
    exact ⟨hrun, (List.nodup_finRange 15).filter _⟩
  number x e n := absurd ((h.number x e).symm.trans n) Bool.false_ne_true
  verification _ _ _ := hrun

theorem missInRunning_inPhase {s : State} (h : s.inPhase) (hrun : s.ring.state = .running) (origin : Option (Fin 17)) :
    (s.missInRunning origin).inPhase := by
  have counted : s.samePhase
      { s with ring := { s.ring.markBreak origin with misses := s.ring.misses + 1 } } := {}
  unfold missInRunning
  dsimp only
  split
  · exact ((leaveRunning_ringIdle (counted.inPhase h) hrun true).enterRing _ _).inPhase
  · exact counted.inPhase h

theorem returnInRunning_inPhase {s : State} (h : s.inPhase) (hrun : s.ring.state = .running) (hop : Option Nat) :
    (s.returnInRunning hop).inPhase := by
  unfold returnInRunning
  dsimp only
  split
  · exact samePhase.inPhase (s := s) {} h
  · split
    · exact samePhase.inPhase (s := s) {} h
    · have mismatched : s.samePhase
          { s with ring := { s.ring with misses := 0, breakPos := 0, shape := s.ring.shape + 1 } } := {}
      split
      · exact halt_inPhase (mismatched.inPhase h) hrun _
      · exact mismatched.inPhase h

theorem goodInBroken_inPhase {s : State} (h : s.ringIdle) (hop : Nat) : (s.goodInBroken hop).inPhase := by
  have counted : ({ s with ring := { s.ring with
      heal := s.ring.heal + 1, healOdd := s.ring.healOdd || hop != s.nodes.count.val } } : State).ringIdle := h.congr
  unfold goodInBroken
  dsimp only
  repeat' split
  · by_cases hrun : s.ring.state = .running
    · exact halt_inPhase counted.inPhase hrun _
    · rw [halt, leaveRunning_of_not_running true (by simpa [running] using hrun)]
      exact (counted.enterRing _ _).inPhase
  · exact beginVerification_inPhase (counted.enterRing _ _) rfl
  · exact counted.inPhase

/-- The Ring Engine at a return keeps the phases (R98, R99, R104). -/
theorem engine_inPhase {s : State} (h : s.inPhase) (r : CycleRecord) (cls : ReturnClass) :
    (s.engine r cls).inPhase := by
  unfold engine
  split
  · next hrun =>
    split
    · exact missInRunning_inPhase h hrun _
    all_goals exact returnInRunning_inPhase h hrun _
  · next broken =>
    have idle : s.ringIdle := h.ringIdle (by rw [broken]; nofun) (by rw [broken]; nofun)
    split
    · exact idle.congr.inPhase
    · exact idle.congr.inPhase
    · exact goodInBroken_inPhase idle _
  all_goals exact h

theorem evaluate_inPhase {s : State} (h : s.inPhase) (r : CycleRecord) (cls : ReturnClass) (delay : Nat)
    (drains : List (List DrainPart)) : (s.evaluate r cls delay drains).inPhase := by
  rw [evaluate_eq]
  have read := channel_inPhase (engine_inPhase (samePhase.inPhase (t := s.released r cls) {} h) r cls) r cls delay
  have extracted := (extract_samePhase _ r cls drains).inPhase read
  exact (advanceWork_samePhase _).inPhase (samePhase.inPhase {} extracted)

theorem follow_samePhase (s : State) (r : CycleRecord) (octets : List Byte) (d : Nat) :
    s.samePhase (s.follow r octets d) := by
  unfold follow
  split <;> exact {}

/-! ### The sending of a cycle -/

/-- The next user's message is a NUMBER only of numbering, and verification's only of a round (R118, R131, R141). -/
theorem nextUser_ofProcedure {s : State} {c : CycleCount} {u : User} {m : Message} {r : Option Refresh}
    (h : s.nextUser c = some (u, m, r)) :
    (m.isNumber = true → ∃ k, s.nodes.procedure = .numbering k) ∧
      (u = .verification → ∃ l, s.nodes.procedure = .verifying l) := by
  unfold nextUser at h
  split at h
  · next hm =>
    cases h
    unfold Procedure.message at hm
    split at hm <;> cases hm
    · next k hk => exact ⟨fun _ => ⟨k, hk⟩, nofun⟩
    · exact ⟨nofun, nofun⟩
    · next l hl => exact ⟨nofun, fun _ => ⟨_, hl⟩⟩
  · split at h
    · next hm =>
      cases h
      unfold distribution at hm
      split at hm <;> cases hm
      refine ⟨fun n => ?_, nofun⟩
      unfold workMessage at n
      split at n <;> cases n
    · obtain ⟨r, -, e⟩ := Option.map_eq_some_iff.mp h
      cases e
      exact ⟨nofun, nofun⟩

/-- The control field of a cycle begins an exchange of a user whose turn it is (R112, R122). -/
theorem controlFor_inPhase {s t : State} {c : CycleCount} (h : s.inPhase)
    (flight : t.turnover.inFlight = s.turnover.inFlight := by rfl) (state : t.ring.state = s.ring.state := by rfl)
    (procedure : t.nodes.procedure = s.nodes.procedure := by rfl)
    (control : t.control = (s.controlFor c).control := by rfl) : t.inPhase := by
  have kept (e : t.control.exchange = s.control.exchange) : t.inPhase :=
    samePhase.inPhase ⟨flight, state, procedure, e⟩ h
  by_cases quieting : s.ring.state = .quieting
  · exact kept (by rw [control, controlFor_quieting quieting])
  by_cases attempt : s.control.attempt = none
  case neg => exact kept (by rw [control, controlFor_outstanding quieting attempt])
  cases exchange : s.control.exchange with
  | some x => exact kept (by rw [control, controlFor_again quieting attempt exchange]; exact exchange.symm)
  | none =>
    cases user : s.nextUser c with
    | none => exact kept (by rw [control, controlFor_idle quieting attempt exchange user])
    | some n =>
      obtain ⟨u, m, r⟩ := n
      obtain ⟨number, verification⟩ := nextUser_ofProcedure user
      have begun : t.control.exchange =
          some { user := u, message := m, failed := 0, limit := s.ring.retryLimit } := by
        rw [control, controlFor_begins quieting attempt exchange user]
        rfl
      refine ⟨by rw [flight, state]; exact h.flight, by rw [procedure, state]; exact h.numbering,
        by rw [procedure, state]; exact h.verifying, fun x e n => ?_, fun x e v => ?_⟩
      · cases begun.symm.trans e
        rw [procedure]
        exact number n
      · cases begun.symm.trans e
        obtain ⟨l, hl⟩ := verification v
        rw [state]
        exact (h.verifying l hl).1

/-- The switch ends the turnover (R81, R82). -/
theorem switchOver_inPhase {s : State} (h : s.inPhase) : s.switchOver.inPhase := by
  have ended : s.switchOver.turnover.inFlight = false := by
    rw [switchOver_eq]
    simp only [Turnover.switched, Turnover.inFlight]
    split <;> rfl
  rw [switchOver_frame]
  exact ⟨fun f => absurd (ended.symm.trans f) Bool.false_ne_true, h.numbering, h.verifying, h.number, h.verification⟩

theorem sendCycle_inPhase {s : State} (h : s.inPhase) : s.sendCycle.inPhase := by
  have composed : s.composing.inPhase := by
    unfold composing
    split
    · exact switchOver_inPhase h
    · exact h
  rw [sendCycle_eq]
  exact controlFor_inPhase composed (state := by rw [composing_ring]; rfl)

theorem endQuiet_inPhase {s : State} (h : s.ringIdle) : s.endQuiet.inPhase := by
  unfold endQuiet
  split
  · exact numbering_begins h
  · exact inPhase_of_none nofun rfl
  · exact h.inPhase

/-! ### The requests -/

theorem editing_inPhase (judge : Port → List Byte → State → Except Denial Edit) (p : Port) (f : List Byte) {s : State}
    (h : s.inPhase) : (editing judge p f s).1.inPhase := by
  unfold editing
  split
  · exact h
  · exact samePhase.inPhase {} ((noteBatch_samePhase _).inPhase (samePhase.inPhase {} h))

theorem ringLevel_inPhase {p : Port} {act : Effect} {s : State} (h : s.inPhase) (ha : (act s).1.inPhase) :
    (ringLevel p act s).1.inPhase := by
  unfold ringLevel
  split
  · exact ha
  · exact h

theorem actFlush_inPhase (p : Port) (f : List Byte) {s : State} (h : s.inPhase) : (actFlush p f s).1.inPhase :=
  samePhase.inPhase (s := s) ⟨Turnover.flushed_inFlight _ _, rfl, rfl, rfl⟩ h

theorem actRingStart_inPhase (p : Port) (f : List Byte) {s : State} (h : s.inPhase) :
    (actRingStart p f s).1.inPhase := by
  refine ringLevel_inPhase h ?_
  split
  · next off =>
    have idle : s.ringIdle := h.ringIdle (by rw [off]; nofun) (by rw [off]; nofun)
    exact (idle.congr (t := s.beginQuiet .numbering .start)).inPhase
  · exact h

theorem actRingStop_inPhase (p : Port) (f : List Byte) {s : State} (h : s.inPhase) : (actRingStop p f s).1.inPhase := by
  refine ringLevel_inPhase h ?_
  split
  · exact h
  · exact samePhase.inPhase (s := s) {} h
  all_goals exact ((endRingWork_ringIdle h).congr (t := s.endRingWork.beginQuiet .off .stop)).inPhase

theorem actRingRestart_inPhase (p : Port) (f : List Byte) {s : State} (h : s.inPhase) :
    (actRingRestart p f s).1.inPhase := by
  refine ringLevel_inPhase h ?_
  split
  case h_4 | h_5 | h_6 | h_7 => exact h
  all_goals exact numbering_begins (endRingWork_ringIdle h)

/-! ### Internal edits, the freeze and the reconciliation -/

theorem internalEdit_samePhase (s : State) (change : StreamId → Descriptor → StreamChange) :
    s.samePhase (s.internalEdit change) := by
  have noted : s.samePhase _ := samePhase.trans (s := s) {} (noteBatch_samePhase _)
  exact noted.trans {}

/-- A freeze begins a turnover in RUNNING alone (R70, R72). -/
theorem grantFreeze_inPhase {s : State} (h : s.inPhase) : s.grantFreeze.inPhase := by
  unfold grantFreeze
  split
  · next granted =>
    have hrun : s.ring.state = .running := by
      obtain ⟨running, -⟩ := Bool.and_eq_true_iff.mp granted
      exact eq_of_beq running
    exact ⟨fun _ => hrun, h.numbering, h.verifying, h.number, h.verification⟩
  · exact ⟨nofun, h.numbering, h.verifying, h.number, h.verification⟩

/-- A reconciliation enters RUNNING with no procedure left (R139). -/
theorem reconcile_inPhase {s : State} (h : s.inPhase) (hproc : s.nodes.procedure = .reconciling) (old : Retained) :
    (s.reconcile old).inPhase where
  flight _ := rfl
  numbering := nofun
  verifying := nofun
  number x e n := by
    obtain ⟨k, hk⟩ := h.number x e n
    cases hproc.symm.trans hk
  verification _ _ _ := rfl

theorem resetWith_inPhase (s : State) (cause : ResetCause) (straps : BitVec 2) (low : Bool) :
    (s.resetWith cause straps low).inPhase := inPhase_of_none nofun rfl

end State

/-! ### Every command -/

/-- Every command keeps the phases. -/
theorem exec_inPhase {c : Instr} {s t : State} (h : exec c s = .next t) (hs : s.inPhase) : t.inPhase := by
  have request (k : RequestKind) {act : Port → List Byte → Effect} (e : t = s.takeRequest k act)
      (ha : ∀ p f (u : State), u.inPhase → (act p f u).1.inPhase) : t.inPhase :=
    e ▸ State.takeRequest_inPhase k ha hs
  cases c with
  | request | fetch | drain | post | status | take | serviceDone | eventset | unknownTransaction =>
    cases h; exact (s.transact_samePhase _ _ _ _).inPhase hs
  | openStream | alter | close | subscribe | unsubscribe | handover =>
    cases h; exact request _ rfl fun p f u hu => State.editing_inPhase _ p f hu
  | streamQuery =>
    cases h
    refine request _ rfl fun p f u hu => ?_
    unfold actStreamQuery
    split <;> exact hu
  | occupancyQuery => cases h; exact request _ rfl fun _ _ _ hu => hu
  | nodeQuery =>
    cases h
    refine request _ rfl fun p f u hu => ?_
    unfold actNodeQuery
    split
    · exact State.samePhase.inPhase {} hu
    · exact hu
  | flush => cases h; exact request _ rfl fun p f u hu => State.actFlush_inPhase p f hu
  | attach =>
    cases h
    refine request _ rfl fun p f u hu => ?_
    unfold actAttach
    split
    · exact hu
    · exact State.samePhase.inPhase {} hu
  | detach => cases h; exact request _ rfl fun _ _ _ hu => State.samePhase.inPhase {} hu
  | setQuota =>
    cases h
    refine request _ rfl fun p f u hu => ?_
    unfold actSetQuota
    repeat' split
    · exact State.ringLevel_inPhase hu (State.samePhase.inPhase {} hu)
    all_goals exact hu
  | ringStart => cases h; exact request _ rfl fun p f u hu => State.actRingStart_inPhase p f hu
  | ringStop => cases h; exact request _ rfl fun p f u hu => State.actRingStop_inPhase p f hu
  | ringRestart => cases h; exact request _ rfl fun p f u hu => State.actRingRestart_inPhase p f hu
  | setRingParameters =>
    cases h
    refine request _ rfl fun p f u hu => ?_
    unfold actSetRingParameters
    repeat' split
    · refine State.ringLevel_inPhase hu ?_
      split
      · exact hu
      · exact State.samePhase.inPhase {} hu
    all_goals exact hu
  | deviceReset straps =>
    cases h
    exact request _ rfl fun p f u hu => State.ringLevel_inPhase hu (u.resetWith_inPhase _ _ _)
  | portEntry =>
    simp only [exec, execPortEntry] at h
    split at h <;> cases h
    · exact (s.internalEdit_samePhase _).inPhase hs
    all_goals exact hs
  | nodeEntryLost =>
    simp only [exec, execNodeEntryLost] at h
    split at h <;> cases h
    · exact (s.internalEdit_samePhase _).inPhase hs
    all_goals exact hs
  | nodeEntryNodeChanged =>
    simp only [exec, execNodeEntryNodeChanged] at h
    split at h <;> cases h
    · exact (s.internalEdit_samePhase _).inPhase hs
    all_goals exact hs
  | gatherCounterExpiry =>
    cases h
    split
    · exact State.samePhase.inPhase (s := s) {} hs
    · exact hs
  | freeze =>
    cases h
    split
    · exact State.grantFreeze_inPhase hs
    · exact hs
  | reconciliation =>
    cases h
    split
    · next hproc _ =>
      split
      · exact State.reconcile_inPhase hs hproc _
      · exact hs
    · exact hs
  | hubCycle =>
    cases h
    split
    · exact State.sendCycle_inPhase hs
    · exact hs
  | quietCyclesEnd =>
    cases h
    split
    · next quiet =>
      obtain ⟨quiet, -⟩ := quiet
      exact State.endQuiet_inPhase (hs.ringIdle (by rw [quiet]; nofun) (by rw [quiet]; nofun))
    · exact hs
  | returnEvaluation cell arrival =>
    cases h
    repeat' split
    · exact hs
    · exact State.evaluate_inPhase ((s.follow_samePhase _ _ _).inPhase hs) _ _ _ _
    · exact hs
  | returnWindowExpiry =>
    cases h
    split
    · exact hs
    · exact State.evaluate_inPhase hs _ _ _ _
  | beaconReceived octets =>
    cases h
    repeat' split
    · exact hs
    · exact State.evaluate_inPhase hs _ _ _ _
    · exact hs
  | leaseExpiry p =>
    cases h
    exact (State.grantLapse_samePhase _ p).inPhase (State.samePhase.inPhase (s := s) {} hs)
  | lapse p => cases h; exact (s.grantLapse_samePhase p).inPhase hs
  | powerOnReset | pinReset => cases h; exact s.resetWith_inPhase _ _ _
  | nresetRelease => cases h; exact State.samePhase.inPhase (s := s) {} hs

/-- Every step keeps the phases. -/
theorem step_inPhase {s t : State} (h : step s = .next t) (hs : s.inPhase) : t.inPhase := by
  unfold step at h
  split at h
  · cases h; exact s.takeUnknown_samePhase.inPhase hs
  · exact exec_inPhase h (State.samePhase.inPhase (s := s) {} hs)

/-- Settles O7: the phases and the lapses that wait are each kept by every step. -/
theorem turnoverOnlyWhileRunning : Obligations.TurnoverOnlyWhileRunning := by
  intro s t hs h
  obtain ⟨phase, waits⟩ := State.coherent_iff.mp hs
  exact State.coherent_iff.mpr ⟨step_inPhase h phase, (step_keepsQueues h).lapsesWait waits⟩

end Sys2Proof.Machine
end

section
/-! SUPPORT. The arbiter's choice (R40), the refusals that all requests share (R45, R47), and the requests that are no
edits up to step 5 of the check order. -/

namespace Sys2Proof.Machine

set_option Elab.async false

/-! ### The arbiter -/

/-- The port found in round-robin order is the first after the one last served that passes the test (R40). -/
theorem find?_roundRobin {last p : Port} {test : Port → Bool} :
    (roundRobin last).find? test = some p ↔
      test p = true ∧ ∀ q : Port, q - last - 1 < p - last - 1 → test q = false := by
  have order : roundRobin last = (List.finRange 4).map fun i => i + 1 + last := by revert last; decide
  have place (i q : Port) : i + 1 + last = q ↔ i = q - last - 1 := by revert i q last; decide
  rw [order, List.find?_map, Option.map_eq_some_iff]
  simp only [place, exists_eq_right, find?_finRange_eq_some, Function.comp_apply]
  rw [(place _ _).mpr rfl]
  refine and_congr_right fun _ => ⟨fun h q hq => ?_, fun h j hj => h _ ?_⟩
  · have := h _ hq
    rwa [(place _ _).mpr rfl] at this
  · rwa [← (place _ _).mp rfl]

namespace HostPort

theorem hasFree_iff {h : HostPort} : h.hasFree = true ↔ h.responses.length + (if h.reserved then 1 else 0) < 8 :=
  decide_eq_true_iff

theorem eligible_eq_false {h : HostPort} :
    h.eligible = false ↔ h.requests = [] ∨ 8 ≤ h.responses.length + (if h.reserved then 1 else 0) := by
  rw [eligible, Bool.and_eq_false_iff, Bool.eq_false_iff (b := h.hasFree), ne_eq, hasFree_iff, not_lt]
  simp

end HostPort

/-- Settles O21: no grant but with nothing ahead of the requests, and then the first eligible port in the order. -/
theorem arbiterIsRoundRobin : Obligations.ArbiterIsRoundRobin := by
  intro s p f
  constructor
  · intro hp
    obtain ⟨idle, empty, head, free, due⟩ := State.pick_some hp
    refine ⟨idle, empty, due, head, HostPort.hasFree_iff.mp free, fun q hq => HostPort.eligible_eq_false.mp ?_⟩
    unfold State.pick at hp
    split at hp
    · split at hp
      · next r found =>
        obtain ⟨_, -, e⟩ := Option.map_eq_some_iff.mp hp
        cases e
        exact (find?_roundRobin.mp found).2 q hq
      · cases hp
    · cases hp
  · rintro ⟨idle, empty, due, ⟨rest, head⟩, free, ahead⟩
    have eligible : (s.port p).eligible = true := by
      rw [HostPort.eligible, head, HostPort.hasFree_iff.mpr free]
      rfl
    have found : (roundRobin s.admission.lastServed).find? (fun q => (s.port q).eligible) = some p :=
      find?_roundRobin.mpr ⟨eligible, fun q hq => HostPort.eligible_eq_false.mpr (ahead q hq)⟩
    have granted : (s.admission.processing.isNone && s.admission.internal.isEmpty && s.noLapseDue) = true := by
      rw [idle, empty, State.noLapseDue_iff.mpr due]
      rfl
    unfold State.pick
    rw [if_pos granted, found]
    dsimp only
    rw [head]
    rfl

/-! ### Frames taken and refused -/

namespace State

@[simp] theorem beginItem_attached (s : State) (p q : Port) (f : List Byte) :
    ((s.beginItem p f).port q).attached = (s.port q).attached := by
  by_cases e : p = q
  · subst e; rw [beginItem_port_self]; rfl
  · rw [beginItem_port_ne _ _ e]

@[simp] theorem beginItem_authority (s : State) (p q : Port) (f : List Byte) :
    ((s.beginItem p f).port q).authority = (s.port q).authority := by
  by_cases e : p = q
  · subst e; rw [beginItem_port_self]
  · rw [beginItem_port_ne _ _ e]

/-- An item refused changes nothing but its answer (R45, R48). -/
theorem runItem_refused {s : State} {p : Port} {f : List Byte} {act : Effect} {r : Reason}
    (hp : s.pick = some (p, f)) (h : act (s.beginItem p f) = refuse r 0 (s.beginItem p f)) :
    s.runItem p f act = s.afterAnswer p f (.refused r 0) :=
  runItem_answers h (processing_of_pick hp)

variable {s : State} {p : Port} {f : List Byte} {k : RequestKind} {act : Port → List Byte → Effect}

/-- Step 1 refuses any request but Attach of a port that is not ATTACHED (R45). -/
theorem takeRequest_notAttached (hp : s.pick = some (p, f)) (hk : frameKind f = some k) (ha : k ≠ .attach)
    (h : (s.port p).attached = false) : s.takeRequest k act = s.afterAnswer p f (.refused .notAttached 0) := by
  rw [takeRequest_of_pick act hp hk]
  refine runItem_refused hp ?_
  rw [checked, if_pos ⟨ha, by rw [beginItem_attached, h]⟩]

/-- A request past step 1 that is not of its kind's length is refused by step 2, and another is carried out (R45,
R47). -/
theorem takeRequest_attached (hp : s.pick = some (p, f)) (hk : frameKind f = some k)
    (h : k = .attach ∨ (s.port p).attached = true) : s.takeRequest k act =
      if frameWellFormed k f = true then s.runItem p f (act p f)
      else s.afterAnswer p f (.refused .malformed 0) := by
  have past : ¬ (k ≠ .attach ∧ ((s.beginItem p f).port p).attached = false) := by
    rw [beginItem_attached]
    rintro ⟨other, detached⟩
    exact h.elim other fun attached => Bool.false_ne_true (detached.symm.trans attached)
  rw [takeRequest_of_pick act hp hk]
  split
  · next well => unfold runItem checked; rw [if_neg past, if_pos well]
  · next malformed => exact runItem_refused hp (by rw [checked, if_neg past, if_neg malformed])

/-- A well-formed request past step 1 whose own checks refuse it (R45, R48). -/
theorem takeRequest_refused {r : Reason} (hp : s.pick = some (p, f)) (hk : frameKind f = some k)
    (hw : frameWellFormed k f = true) (h : k = .attach ∨ (s.port p).attached = true)
    (hact : act p f (s.beginItem p f) = refuse r 0 (s.beginItem p f)) :
    s.takeRequest k act = s.afterAnswer p f (.refused r 0) := by
  rw [takeRequest_attached hp hk h, if_pos hw]
  exact runItem_refused hp hact

end State

/-- Each kind's command takes a request of that kind (R39). -/
theorem exec_requestCommand (straps : BitVec 2) (k : RequestKind) :
    ∃ act, ∀ s, exec (requestCommand straps k) s = .next (s.takeRequest k act) := by
  cases k <;> exact ⟨_, fun _ => rfl⟩

/-- Settles O2: a frame of unknown kind is refused at the item it begins, and nothing else is taken. -/
theorem stepWithNoCommand : Obligations.StepWithNoCommand := by
  intro s hpending
  have idles : step s = .next s.takeUnknown := by unfold step; rw [hpending]
  rw [idles]
  refine ⟨fun h => congrArg _ ?_, fun p f hp hk => congrArg _ ?_⟩
  · rcases h with none | ⟨p, f, k, hp, hk⟩
    · unfold State.takeUnknown; rw [none]
    · exact State.takeUnknown_of_known hp hk
  · have refused : s.takeUnknown = s.runItem p f fun s =>
        if (s.port p).attached then refuse .malformed 0 s else refuse .notAttached 0 s := by
      unfold State.takeUnknown; rw [hp]; exact if_pos hk
    rw [refused]
    refine State.runItem_refused hp ?_
    rw [State.beginItem_attached]
    split <;> rfl

/-! ### The requests that are no edits -/

/-- A ring-level request without ring authority (R45, R174). -/
theorem ringLevel_refuses {s : State} {p : Port} (h : (s.port p).authority = false) (act : Effect) :
    ringLevel p act s = refuse .notAuthority 0 s := by simp [ringLevel, h]

theorem ringLevel_acts {s : State} {p : Port} (h : (s.port p).authority = true) (act : Effect) :
    ringLevel p act s = act s := by simp [ringLevel, h]

theorem rateOf_code (r : CycleRate) : rateOf r.code = some r := by cases r <;> rfl

theorem CycleRate.code_lt (r : CycleRate) : r.code < 256 := by cases r <;> decide

theorem rateOf_eq_none {n : Nat} (h : 2 < n) : rateOf n = none := by
  obtain ⟨k, rfl⟩ := Nat.exists_eq_add_of_lt h
  rw [show 2 + k + 1 = k + 3 by omega]
  rfl

/-- Set Ring Parameters in range needs ring authority (R45, R110). -/
theorem actSetRingParameters_inRange {p : Port} {f : List Byte} {rate : CycleRate} (hr : rateOf (numAt f 3) = some rate)
    (h : 1 ≤ numAt f 4 ∧ numAt f 4 ≤ 8 ∧ 1 ≤ numAt f 5 ∧ numAt f 5 ≤ 16 ∧ numAt f 6 ≤ 7) (s : State) :
    actSetRingParameters p f s = ringLevel p (fun s =>
      if rate ≠ s.ring.rate ∧ s.ring.state ≠ .off then refuse .ringState 0 s
      else answered { s with
          ring := { s.ring with
            rate := rate, missLimit := numAt f 4, healCount := numAt f 5, retryLimit := numAt f 6
            gatherWindow := numAt f 7 } }
        [octet rate.code, octetAt f 4, octetAt f 5, octetAt f 6, octetAt f 7]) s := by
  unfold actSetRingParameters
  rw [hr]
  exact if_pos h

/-- Set Ring Parameters out of range (R110). -/
theorem actSetRingParameters_outOfRange {p : Port} {f : List Byte} (s : State)
    (h : rateOf (numAt f 3) = none ∨
      ¬ (1 ≤ numAt f 4 ∧ numAt f 4 ≤ 8 ∧ 1 ≤ numAt f 5 ∧ numAt f 5 ≤ 16 ∧ numAt f 6 ≤ 7)) :
    actSetRingParameters p f s = refuse .badArgument 0 s := by
  unfold actSetRingParameters
  split
  · next rate hr => exact if_neg (h.resolve_left (by rw [hr]; nofun))
  · rfl

/-- Set Quota in range needs ring authority (R45, R175). -/
theorem actSetQuota_inRange {p q : Port} {f : List Byte} (hq : portOf (numAt f 3) = some q) (h : numAt f 4 ≤ 224)
    (s : State) : actSetQuota p f s = ringLevel p (fun s =>
        answered { s with admission := { s.admission with quotas := s.admission.quotas.set q (numAt f 4) } }
          [octet q.val, octetAt f 4]) s := by
  unfold actSetQuota
  rw [hq]
  exact if_pos h

/-- Set Quota out of range (R175). -/
theorem actSetQuota_outOfRange {p : Port} {f : List Byte} (s : State)
    (h : portOf (numAt f 3) = none ∨ 224 < numAt f 4) : actSetQuota p f s = refuse .badArgument 0 s := by
  unfold actSetQuota
  split
  · next q hq => exact if_neg (Nat.not_le.mpr (h.resolve_left (by rw [hq]; nofun)))
  · rfl

/-- Settles O22: each step of the check order in its turn, at the frame the arbiter chose. -/
theorem checksRefuseInOrder : Obligations.ChecksRefuseInOrder := by
  intro straps k s p f tag hp refused
  refine ⟨fun hk other detached => ?_, fun hk past length => ?_, fun past range => ?_, fun ha auth level => ?_,
    fun ha auth level => ?_⟩
  · obtain ⟨act, e⟩ := exec_requestCommand straps k
    exact (e s).trans (congrArg _ (State.takeRequest_notAttached hp hk other detached))
  · obtain ⟨act, e⟩ := exec_requestCommand straps k
    refine (e s).trans (congrArg _ ?_)
    rw [State.takeRequest_attached hp hk past, if_neg (by simpa [frameWellFormed] using length)]
  · rcases range with ⟨id, rfl, hid, rfl⟩ | ⟨q, rfl, hq, rfl⟩ | ⟨lease, enables, rfl, bit, rfl⟩ |
      ⟨q, quota, rfl, h, rfl⟩ | ⟨rate, m, h, r, w, rfl, range, rfl⟩
    all_goals refine congrArg _ (State.takeRequest_refused hp rfl rfl past ?_)
    · unfold actStreamQuery
      rw [show streamOf (numAt (frameOf tag 0x10 [id]) 3) = none from streamOf_eq_none.mpr hid]
    · unfold actNodeQuery
      rw [show posOf (numAt (frameOf tag 0x12 [q]) 3) = none from ?_]
      refine dif_neg (show ¬ (1 ≤ q.toNat ∧ q.toNat ≤ 15) from ?_)
      rcases hq with rfl | hq
      · decide
      · omega
    · exact if_pos bit
    · exact actSetQuota_outOfRange _ (h.imp portOf_eq_none.mpr id)
    · refine actSetRingParameters_outOfRange _ ?_
      show rateOf rate.toNat = none ∨ ¬ (1 ≤ m.toNat ∧ m.toNat ≤ 8 ∧ 1 ≤ h.toNat ∧ h.toNat ≤ 16 ∧ r.toNat ≤ 7)
      rcases range with above | rfl | above | rfl | above | above
      · exact .inl (rateOf_eq_none above)
      · exact .inr (by simp)
      · exact .inr (by omega)
      · exact .inr (by simp)
      · exact .inr (by omega)
      · exact .inr (by omega)
  · have noAuthority : ((s.beginItem p f).port p).authority = false := by rw [State.beginItem_authority, auth]
    rcases level with ⟨rfl, rfl⟩ | ⟨rfl, rfl⟩ | ⟨rfl, rfl⟩ | ⟨rfl, rfl⟩ | ⟨q, quota, rfl, hquota, rfl⟩ |
      ⟨rate, m, h, r, w, rfl, ⟨m1, m8⟩, ⟨h1, h16⟩, r7, -, rfl⟩
    all_goals refine congrArg _ (State.takeRequest_refused hp rfl rfl (.inr ha) ?_)
    iterate 4 exact ringLevel_refuses noAuthority _
    · rw [actSetQuota_inRange (q := q)]
      · exact ringLevel_refuses noAuthority _
      · exact (congrArg portOf (octet_port_toNat q)).trans (portOf_val q)
      · exact (octet_toNat (show quota < 256 by omega)).trans_le hquota
    · rw [actSetRingParameters_inRange (rate := rate)]
      · exact ringLevel_refuses noAuthority _
      · exact (congrArg rateOf (octet_toNat rate.code_lt)).trans (rateOf_code rate)
      · show 1 ≤ (octet m).toNat ∧ (octet m).toNat ≤ 8 ∧ 1 ≤ (octet h).toNat ∧ (octet h).toNat ≤ 16 ∧
          (octet r).toNat ≤ 7
        rw [octet_toNat (by omega), octet_toNat (by omega), octet_toNat (by omega)]
        exact ⟨m1, m8, h1, h16, r7⟩
  · have authority : ((s.beginItem p f).port p).authority = true := by rw [State.beginItem_authority, auth]
    rcases level with ⟨rfl, rfl, on⟩ | ⟨rfl, rfl, off⟩ | ⟨rfl, rfl, states⟩
    all_goals
      refine congrArg _ (State.takeRequest_refused hp rfl rfl (.inr ha) ((ringLevel_acts authority _).trans ?_))
    · exact if_neg on
    · rw [show (s.beginItem p (frameOf tag 0x32 [])).ring.state = .off from off]
    · rcases states with h | h | h | h
      all_goals
        dsimp only
        rw [show (s.beginItem p (frameOf tag 0x33 [])).ring.state = _ from h]

end Sys2Proof.Machine
end

section
/-! SUPPORT. The judgements of Close, Subscribe and Unsubscribe (R53 to R55). -/

namespace Sys2Proof.Machine

set_option Elab.async false

theorem RingState.allowsLeaving_iff {st : RingState} :
    st.allowsLeaving = true ↔ st ≠ .quieting ∧ st ≠ .off := by
  cases st <;> simp [RingState.allowsLeaving]

theorem RingState.allowsLeaving_eq_false {st : RingState} :
    st.allowsLeaving = false ↔ st = .quieting ∨ st = .off := by
  cases st <;> simp [RingState.allowsLeaving]

/-! ### The judgements -/

theorem judgeClose_beginItem (p q : Port) (f g : List Byte) (s : State) :
    judgeClose p f (s.beginItem q g) = judgeClose p f s := rfl

theorem judgeSubscribe_beginItem (p q : Port) (f g : List Byte) (s : State) :
    judgeSubscribe p f (s.beginItem q g) = judgeSubscribe p f s := rfl

theorem judgeUnsubscribe_beginItem (p q : Port) (f g : List Byte) (s : State) :
    judgeUnsubscribe p f (s.beginItem q g) = judgeUnsubscribe p f s := rfl

/-- Without a stream id the three are refused alike (R53 to R55). -/
theorem judgements_badArgument {f : List Byte} (h : streamOf (numAt f 3) = none) (p : Port) (s : State) :
    judgeClose p f s = .error (.badArgument, 0) ∧ judgeSubscribe p f s = .error (.badArgument, 0) ∧
      judgeUnsubscribe p f s = .error (.badArgument, 0) := by
  unfold judgeClose judgeSubscribe judgeUnsubscribe
  rw [h]
  exact ⟨rfl, rfl, rfl⟩

/-- A Close in range is judged by the ring state, the staged view and its owner (R45, R53). -/
theorem judgeClose_eq {p : Port} {f : List Byte} {id : StreamId} (hi : streamOf (numAt f 3) = some id) (s : State) :
    (s.ring.state.allowsLeaving = false → judgeClose p f s = .error (.ringState, 0)) ∧
    (s.ring.state.allowsLeaving = true →
      ((s.entry id).staged = none → judgeClose p f s = .error (.noSuchStream, 0)) ∧
      ∀ d, (s.entry id).staged = some d →
        (d.owner ≠ p → judgeClose p f s = .error (.notOwner, 0)) ∧
        (d.owner = p → judgeClose p f s = .ok
          { id := id, staged := none
            notices := d.subscribers.map fun q => (q, .streamClosed id .ownerClosed none) })) := by
  unfold judgeClose
  rw [hi]
  simp +contextual

/-- A Subscribe in range is judged by the ring state, the staged view, its owner and list, and its source (R45,
R54). -/
theorem judgeSubscribe_eq {p : Port} {f : List Byte} {id : StreamId} (hi : streamOf (numAt f 3) = some id)
    (s : State) :
    (s.ring.state.allowsEdits = false → judgeSubscribe p f s = .error (.ringState, 0)) ∧
    (s.ring.state.allowsEdits = true →
      ((s.entry id).staged = none → judgeSubscribe p f s = .error (.noSuchStream, 0)) ∧
      ∀ d, (s.entry id).staged = some d →
        (d.owner = p ∨ p ∈ d.subscribers → judgeSubscribe p f s = .error (.already, 0)) ∧
        (¬ (d.owner = p ∨ p ∈ d.subscribers) →
          (d.source = .host ∨ 3 ≤ d.subscribers.length → judgeSubscribe p f s = .error (.badArgument, 0)) ∧
          (¬ (d.source = .host ∨ 3 ≤ d.subscribers.length) → judgeSubscribe p f s = .ok
            { id := id, staged := some { d with subscribers := d.subscribers ++ [p] }, notices := [] }))) := by
  unfold judgeSubscribe
  rw [hi]
  refine ⟨fun h => by simp [h], fun h => ⟨fun absent => by simp [h, absent], fun d hd => ?_⟩⟩
  dsimp only
  rw [if_pos h, hd]
  dsimp only
  refine ⟨fun h => if_pos h, fun h => ?_⟩
  rw [if_neg h]
  exact ⟨fun h => if_pos h, fun h => if_neg h⟩

/-- An Unsubscribe in range is judged by the ring state, the staged view and its list (R45, R55). -/
theorem judgeUnsubscribe_eq {p : Port} {f : List Byte} {id : StreamId} (hi : streamOf (numAt f 3) = some id)
    (s : State) :
    (s.ring.state.allowsLeaving = false → judgeUnsubscribe p f s = .error (.ringState, 0)) ∧
    (s.ring.state.allowsLeaving = true →
      ((s.entry id).staged = none → judgeUnsubscribe p f s = .error (.noSuchStream, 0)) ∧
      ∀ d, (s.entry id).staged = some d →
        (p ∉ d.subscribers → judgeUnsubscribe p f s = .error (.notSubscriber, 0)) ∧
        (p ∈ d.subscribers → judgeUnsubscribe p f s = .ok
          { id := id, staged := some { d with subscribers := d.subscribers.erase p }, notices := [] })) := by
  unfold judgeUnsubscribe
  rw [hi]
  simp +contextual

/-! ### Close -/

/-- Of notices alike, one to each port of a list, a port hears one when it is in the list, and else none. -/
theorem filter_map_notices {l : List Port} (hl : l.Nodup) (n : Notice) (q : Port) :
    ((l.map fun r => (r, n)).filter fun x => x.1 == q).map Prod.snd = if q ∈ l then [n] else [] := by
  rw [List.filter_map, List.map_map]
  have heard : l.filter ((fun x : Port × Notice => x.1 == q) ∘ fun r => (r, n)) = l.filter (· == q) := rfl
  rw [heard, List.filter_beq, List.map_replicate]
  split
  · next h => rw [List.count_eq_one_of_mem hl h]; rfl
  · next h => rw [List.count_eq_zero_of_not_mem h]; rfl

/-- Settles O25: each check of the judgement in its turn, and one notice to each subscriber. -/
theorem closeIsJudged : Obligations.CloseIsJudged := by
  intro s p tag a f hf hp ha
  have hk : frameKind f = some .close := by rw [hf]; rfl
  have hw : frameWellFormed .close f = true := by rw [hf]; rfl
  have refused {r : Reason} {n : Nat} (h : judgeClose p f s = .error (r, n)) :
      exec .close s = .next (s.afterAnswer p f (.refused r n)) :=
    congrArg _ (State.edit_refused hp ha hk hw (by rw [judgeClose_beginItem, h]))
  refine ⟨fun h => refused (judgements_badArgument ?_ p s).1, fun id hida => ?_⟩
  · rw [hf]
    exact streamOf_eq_none.mpr h
  have hi : streamOf (numAt f 3) = some id := by
    rw [hf, hida]; exact (congrArg streamOf (octet_stream_toNat id)).trans (streamOf_val id)
  obtain ⟨closed, opened⟩ := judgeClose_eq (p := p) hi s
  refine ⟨fun h => refused (closed (RingState.allowsLeaving_eq_false.mpr h)), fun quieting off => ?_⟩
  obtain ⟨absent, present⟩ := opened (RingState.allowsLeaving_iff.mpr ⟨quieting, off⟩)
  refine ⟨fun h => refused (absent h), fun d hd => ?_⟩
  obtain ⟨foreign, own⟩ := present d hd
  refine ⟨fun h => refused (foreign h), fun owner distinct stranger => ?_⟩
  have told := State.edit_told hp ha hk hw ((judgeClose_beginItem p p f f s).trans (own owner))
  obtain ⟨frame, sender, others⟩ := State.told_finishItem (u := s.afterEdit p id none) p f
    (d.subscribers.map fun q => (q, .streamClosed id .ownerClosed none)) (.accepted id s.admission.ticket)
    (State.processing_of_pick (s := s) hp) (by
      intro x hx
      obtain ⟨q, hq, rfl⟩ := List.mem_map.mp hx
      exact fun e => stranger (e ▸ hq))
  refine ⟨_, congrArg Host.Outcome.next told, frame, sender, fun q hq => ?_, fun q hq hne => ?_⟩
  · rw [others q (fun e => stranger (e ▸ hq)), filter_map_notices distinct, if_pos hq]
    rfl
  · rw [others q hne, filter_map_notices distinct, if_neg hq]
    rfl

/-! ### Subscribe and Unsubscribe -/

/-- Settles O26: each check of the two judgements in its turn, and the list they leave. -/
theorem subscriptionsAreJudged : Obligations.SubscriptionsAreJudged := by
  intro s p tag a f hp ha
  have id_of {code : Nat} {id : StreamId} (hf : f = frameOf tag code [octet id.val]) :
      streamOf (numAt f 3) = some id := by
    rw [hf]; exact (congrArg streamOf (octet_stream_toNat id)).trans (streamOf_val id)
  have no_id {code : Nat} (hf : f = frameOf tag code [a]) (h : 47 < a.toNat) : streamOf (numAt f 3) = none := by
    rw [hf]; exact streamOf_eq_none.mpr h
  constructor
  · intro hf refused
    have hk : frameKind f = some .subscribe := by rw [hf]; rfl
    have hw : frameWellFormed .subscribe f = true := by rw [hf]; rfl
    have refuses {r : Reason} (h : judgeSubscribe p f s = .error (r, 0)) : refused r :=
      congrArg _ (State.edit_refused hp ha hk hw (by rw [judgeSubscribe_beginItem, h]))
    refine ⟨fun h => refuses (judgements_badArgument (no_id hf h) p s).2.1, fun id hida => ?_⟩
    obtain ⟨closed, opened⟩ := judgeSubscribe_eq (p := p) (id_of (hida ▸ hf)) s
    refine ⟨fun h => refuses (closed ?_), fun h => ?_⟩
    · rw [Bool.eq_false_iff, ne_eq, RingState.allowsEdits_iff, not_or]; exact h
    obtain ⟨absent, present⟩ := opened (RingState.allowsEdits_iff.mpr h)
    refine ⟨fun h => refuses (absent h), fun d hd => ?_⟩
    obtain ⟨already, stranger⟩ := present d hd
    refine ⟨fun h => refuses (already h), fun owner member barred => ?_, fun owner member source room => ?_⟩
    · exact refuses ((stranger (not_or.mpr ⟨owner, member⟩)).1 barred)
    · have admitted := (stranger (not_or.mpr ⟨owner, member⟩)).2 (not_or.mpr ⟨source, Nat.not_le.mpr room⟩)
      exact congrArg _ (State.edit_accepted hp ha hk hw (by rw [judgeSubscribe_beginItem, admitted]))
  · intro hf refused
    have hk : frameKind f = some .unsubscribe := by rw [hf]; rfl
    have hw : frameWellFormed .unsubscribe f = true := by rw [hf]; rfl
    have refuses {r : Reason} (h : judgeUnsubscribe p f s = .error (r, 0)) : refused r :=
      congrArg _ (State.edit_refused hp ha hk hw (by rw [judgeUnsubscribe_beginItem, h]))
    refine ⟨fun h => refuses (judgements_badArgument (no_id hf h) p s).2.2, fun id hida => ?_⟩
    obtain ⟨closed, opened⟩ := judgeUnsubscribe_eq (p := p) (id_of (hida ▸ hf)) s
    refine ⟨fun h => refuses (closed (RingState.allowsLeaving_eq_false.mpr h)), fun quieting off => ?_⟩
    obtain ⟨absent, present⟩ := opened (RingState.allowsLeaving_iff.mpr ⟨quieting, off⟩)
    refine ⟨fun h => refuses (absent h), fun d hd => ?_⟩
    obtain ⟨stranger, subscriber⟩ := present d hd
    refine ⟨fun h => refuses (stranger h), fun before after' list first => ?_⟩
    have leaves := subscriber (by rw [list]; simp)
    rw [list, List.erase_append_right _ first, List.erase_cons_head] at leaves
    exact congrArg _ (State.edit_accepted hp ha hk hw (by rw [judgeUnsubscribe_beginItem, leaves]))

end Sys2Proof.Machine
end

section
/-! SUPPORT. Attach, Detach, Set Quota and Set Ring Parameters (R110, R170, R173, R175), and Flush and the freeze's
claim (R68 to R70). -/

namespace Sys2Proof.Machine

set_option Elab.async false

namespace State

/-- A well-formed request past step 1 whose effect is a change that the taking of its frame does not touch (R45,
R48). -/
theorem takeRequest_answers {s u : State} {p : Port} {f : List Byte} {k : RequestKind}
    {act : Port → List Byte → Effect} {r : Reply} (hp : s.pick = some (p, f)) (hk : frameKind f = some k)
    (hw : frameWellFormed k f = true) (h : k = .attach ∨ (s.port p).attached = true)
    (hu : u.admission.processing = s.admission.processing)
    (hact : act p f (s.beginItem p f) = (u.beginItem p f, some r)) :
    s.takeRequest k act = u.afterAnswer p f r := by
  rw [takeRequest_attached hp hk h, if_pos hw]
  exact runItem_answers hact (hu.trans (processing_of_pick hp))

end State

/-! ### Sessions -/

/-- Settles O29: the port is taken in the state that its own frame left. -/
theorem attachBeginsSession : Obligations.AttachBeginsSession := by
  intro s p tag lease enables f hf hp bit
  subst hf
  refine congrArg Host.Outcome.next (State.takeRequest_answers hp rfl rfl (.inl rfl) (by rfl) ?_)
  have passes : ¬ (octetAt (frameOf tag 0x20 [lease, enables]) 4).getLsbD 7 = true := by
    rw [Bool.not_eq_true]; exact bit
  unfold actAttach answered
  rw [if_neg passes, State.beginItem_authority]
  refine congrArg (Prod.mk · _) ?_
  unfold State.modPort State.beginItem
  simp only [Table.modify_modify]
  rfl

theorem Entry.ownedInForce_iff {e : Entry} {p : Port} :
    e.ownedInForce p = true ↔ ∃ d, e.inForce = some d ∧ d.owner = p := by
  unfold ownedInForce
  cases e.inForce <;> simp

/-- A session end: the port, its tickets, the post buffers of the streams it owns in force, and its port entry (R43,
R147, R159). -/
theorem State.endSession_eq (s : State) (p : Port) : s.endSession p = { s with
    ports := s.ports.modify p HostPort.endSession
    mover :=
      { s.mover with
        posts := Table.tabulate fun id =>
          if ∃ d, (s.entry id).inForce = some d ∧ d.owner = p then .empty else s.mover.posts.get id }
    admission :=
      { s.admission with
        batchTickets := s.admission.batchTickets.set p 0
        internal := enqueue s.admission.internal (.port p) }
    turnover := { s.turnover with outTickets := s.turnover.outTickets.set p 0 } } := by
  simp only [endSession, Entry.ownedInForce_iff]

/-- Settles O30: the session's end in the state that its own frame left, and the answer at a port that is no longer
ATTACHED. -/
theorem detachEndsSession : Obligations.DetachEndsSession := by
  intro s p tag f hf hp ha
  subst hf
  refine congrArg Host.Outcome.next ?_
  obtain ⟨idle, empty, -⟩ := State.pick_some hp
  have run : s.takeRequest .detach actDetach = (((s.beginItem p (frameOf tag 0x21 [])).endSession p).modPort p fun h =>
      { h with state := .detached, leaseTimer := none, leaseSetting := 0 }).finishItem p (frameOf tag 0x21 [])
        (.done []) :=
    State.takeRequest_wellFormed _ hp ha rfl rfl
  rw [run, State.endSession_eq]
  unfold State.finishItem State.modPort State.beginItem
  simp only [Table.modify_modify, empty]
  rw [← idle]
  rfl

/-! ### Set Quota and Set Ring Parameters -/

/-- Settles O31: both in range, at the item of the authority port. -/
theorem quotaAndParametersAreSet : Obligations.QuotaAndParametersAreSet := by
  intro s p tag ha auth
  have authority (f : List Byte) : ((s.beginItem p f).port p).authority = true := by
    rw [State.beginItem_authority, auth]
  refine ⟨fun q quota f hquota hf hp => ?_, fun rate m h r w f m1 m8 h1 h16 r7 hw hf hp => ?_⟩
  · have value : numAt f 4 = quota := by rw [hf]; exact octet_toNat (by omega)
    have port : portOf (numAt f 3) = some q := by
      rw [hf]; exact (congrArg portOf (octet_port_toNat q)).trans (portOf_val q)
    have hk : frameKind f = some .setQuota := by rw [hf]; rfl
    have well : frameWellFormed .setQuota f = true := by rw [hf]; rfl
    refine congrArg Host.Outcome.next (State.takeRequest_answers hp hk well (.inr ha) (by rfl) ?_)
    rw [actSetQuota_inRange port (value.trans_le hquota), ringLevel_acts (authority f), value, hf]
    rfl
  · have v4 : numAt f 4 = m := by rw [hf]; exact octet_toNat (by omega)
    have v5 : numAt f 5 = h := by rw [hf]; exact octet_toNat (by omega)
    have v6 : numAt f 6 = r := by rw [hf]; exact octet_toNat (by omega)
    have v7 : numAt f 7 = w := by rw [hf]; exact octet_toNat (by omega)
    have names : rateOf (numAt f 3) = some rate := by
      rw [hf]; exact (congrArg rateOf (octet_toNat rate.code_lt)).trans (rateOf_code rate)
    have hk : frameKind f = some .setRingParameters := by rw [hf]; rfl
    have well : frameWellFormed .setRingParameters f = true := by rw [hf]; rfl
    have acts := (actSetRingParameters_inRange (p := p) names (by omega) (s.beginItem p f)).trans
      (ringLevel_acts (authority f) _)
    rw [v4, v5, v6, v7] at acts
    by_cases allowed : rate = s.ring.rate ∨ s.ring.state = .off
    · rw [if_pos allowed]
      refine congrArg Host.Outcome.next (State.takeRequest_answers hp hk well (.inr ha) (by rfl) (acts.trans ?_))
      refine (if_neg (show ¬ (rate ≠ s.ring.rate ∧ s.ring.state ≠ .off) by tauto)).trans ?_
      rw [hf]
      rfl
    · rw [if_neg allowed]
      refine congrArg Host.Outcome.next (State.takeRequest_refused hp hk well (.inr ha) (acts.trans ?_))
      exact if_pos (show rate ≠ s.ring.rate ∧ s.ring.state ≠ .off from not_or.mp allowed)

/-! ### Flush and the freeze -/

/-- What a Flush does at the Turnover Controller (R69). -/
theorem Turnover.flushed_eq (t : Turnover) (batchEmpty : Bool) : t.flushed batchEmpty =
    if t.state = .gathering then { t with gather := 0, claim := true }
    else if t.inFlight = true ∧ batchEmpty = false then { t with flush := true } else t := by
  unfold flushed inFlight
  cases h : t.state <;> cases batchEmpty <;> simp

theorem State.guarded_of_mem {s : State} {p : Pos} (hs : (s.node p).state = .stale)
    (hh : (s.node p).held = some (s.turnover.epoch + 1)) : s.guarded = true := by
  unfold guarded
  refine List.any_eq_true.mpr ⟨p, mem_allPositions p, ?_⟩
  simp [NodeEntry.guards, hs, hh]

/-- Settles O39: the Flush's effect, the expiry's claim, and a grant that the ring or the guard holds back. -/
theorem freezeIsClaimedOrHeldBack : Obligations.FreezeIsClaimedOrHeldBack := by
  refine ⟨fun s p tag f hf hp ha => ?_, fun s hstate hgather => ?_, fun s hproc hint hdue held => ?_⟩
  · have flushed := s.turnover.flushed_eq s.admission.batchEmpty
    subst hf
    refine congrArg Host.Outcome.next (State.takeRequest_answers hp rfl rfl (.inr ha) (by rfl) ?_)
    rw [← flushed]
    unfold actFlush answered
    have shown : (s.turnover.flushed s.admission.batchEmpty).state = s.turnover.state ∧
        (s.turnover.flushed s.admission.batchEmpty).epoch = s.turnover.epoch := by
      rw [flushed]
      split
      · exact ⟨rfl, rfl⟩
      · split <;> exact ⟨rfl, rfl⟩
    obtain ⟨state, epoch⟩ := shown
    rw [← state, ← epoch]
    rfl
  · exact congrArg _ (if_pos ⟨hstate, hgather⟩)
  · have due : (s.turnover.freezeDue && s.admission.processing.isNone && s.admission.internal.isEmpty) = true := by
      rw [hdue, hproc, hint]; rfl
    have back : ¬ (s.running && !s.guarded) = true := by
      rcases held with off | ⟨p, stale, epoch⟩
      · simp [State.running, off]
      · simp [State.guarded_of_mem stale epoch]
    refine congrArg _ ((if_pos due).trans ?_)
    exact if_neg back

end Sys2Proof.Machine
end

section
/-! SUPPORT. The walk of an internal edit over the staged views (R58), and the three kinds of entry (R59 to R61). -/

namespace Sys2Proof.Machine

set_option Elab.async false

/-! ### The walk -/

/-- The notices of a change that a port hears, in their order. -/
def StreamChange.heardBy (q : Port) : StreamChange → List Notice
  | some (_, l) => (l.filter fun x => x.1 == q).map Prod.snd
  | none => []

/-- A closed stream's notices reach a port once for each of its places (R60, R61). -/
theorem closedNotices_heard (d : Descriptor) (n : Notice) (q : Port) :
    ((closedNotices d n).filter fun x => x.1 == q).map Prod.snd = noticesFor q (d.owner :: d.subscribers) n := by
  rw [closedNotices, List.filter_map, List.map_map]
  rfl

theorem ownerNotice_heard (owner : Port) (n : Notice) (q : Port) :
    (([(owner, n)] : List (Port × Notice)).filter fun x => x.1 == q).map Prod.snd = noticesFor q [owner] n := by
  rw [noticesFor, List.filter_singleton, List.filter_singleton]
  cases (owner == q) <;> rfl

theorem HostPort.postEach_sameButNotices (h : HostPort) (l : List Notice) : h.sameButNotices (h.postEach l) := by
  induction l generalizing h with
  | nil => rfl
  | cons n l ih =>
    have posted : h.sameButNotices (h.post n) := h.post_same n
    rw [postEach_cons]
    refine (ih (h.post n)).trans ?_
    rw [posted]

namespace State

/-- What an internal edit makes of a stream. -/
def streamChange (s : State) (change : StreamId → Descriptor → StreamChange) (id : StreamId) : StreamChange :=
  match (s.entry id).staged with
  | some d => change id d
  | none => none

variable {s : State} {change : StreamId → Descriptor → StreamChange} {id : StreamId}

theorem streamChange_of_staged {d : Descriptor} (h : (s.entry id).staged = some d) :
    s.streamChange change id = change id d := by rw [streamChange, h]

theorem streamChange_of_absent (h : (s.entry id).staged = none) : s.streamChange change id = none := by
  rw [streamChange, h]

/-- An internal edit takes its entry off the list, and reaches the streams, the batch and the ports alone (R58, R67). -/
theorem internalEdit_frame {e : InternalEntry} {rest : List InternalEntry} (h : s.admission.internal = e :: rest) :
    s.internalEdit change = { s with
      ports := (s.internalEdit change).ports, streams := (s.internalEdit change).streams, turnover := s.gathered
      admission := { s.admission with internal := rest, batchEmpty := false } } := by
  have gathers := s.startGathering_eq_gathered
  have tail : rest = s.admission.internal.tail := by rw [h]; rfl
  rw [← gathers, tail]
  rfl

theorem internalEdit_entry (s : State) (change : StreamId → Descriptor → StreamChange) (id : StreamId) :
    (s.internalEdit change).entry id = match s.streamChange change id with
      | some (d, _) => { s.entry id with staged := d, member := true }
      | none => s.entry id :=
  Table.get_tabulate _ id

theorem internalEdit_changed {d : Option Descriptor} {l : List (Port × Notice)}
    (h : s.streamChange change id = some (d, l)) :
    (s.internalEdit change).entry id = { s.entry id with staged := d, member := true } := by
  rw [internalEdit_entry, h]

theorem internalEdit_unchanged (h : s.streamChange change id = none) :
    (s.internalEdit change).entry id = s.entry id := by rw [internalEdit_entry, h]

/-- The outgoing and in-force views stay (R58). -/
theorem internalEdit_views (s : State) (change : StreamId → Descriptor → StreamChange) (id : StreamId) :
    ((s.internalEdit change).entry id).outgoing = (s.entry id).outgoing ∧
      ((s.internalEdit change).entry id).inForce = (s.entry id).inForce := by
  rw [internalEdit_entry]
  split <;> exact ⟨rfl, rfl⟩

/-- A port hears the notices of the walk in ascending stream id, and nothing else reaches it (R58, R62). -/
theorem internalEdit_port (s : State) (change : StreamId → Descriptor → StreamChange) (q : Port) :
    (s.internalEdit change).port q =
      (s.port q).postEach (allStreams.flatMap fun id => (s.streamChange change id).heardBy q) := by
  refine (postAll_port _ _ q).trans ?_
  rw [List.filter_flatMap, List.map_flatMap]
  refine congrArg (s.port q).postEach (congrArg (List.flatMap · allStreams) (funext fun id => ?_))
  show ((match s.streamChange change id with | some (_, l) => l | none => []).filter _).map _ = _
  cases s.streamChange change id <;> rfl

/-- The notices of the walk, when each stream's are known. -/
theorem internalEdit_told {q : Port} {heard : StreamId → List Notice}
    (h : ∀ id, (s.streamChange change id).heardBy q = heard id) :
    (s.internalEdit change).port q = (s.port q).postEach (allStreams.flatMap heard) := by
  rw [internalEdit_port, show (fun id => (s.streamChange change id).heardBy q) = heard from funext h]

end State

/-! ### The departure of a port -/

section portEntry
variable {n : Port} {id : StreamId} {d : Descriptor}

/-- A node-sourced stream passes to its first subscriber (R59). -/
theorem portEntryChange_passes {q : Pos} {x : Port} {l : List Port} (owner : d.owner = n) (source : d.source = .node q)
    (list : d.subscribers = x :: l) : portEntryChange n id d =
      some (some { d with owner := x, ownerReceives := true, subscribers := l }, [(x, .streamGained id n)]) := by
  unfold portEntryChange Descriptor.passTo
  rw [if_pos owner, source, list]
  dsimp only
  rw [List.erase_cons_head]

/-- A stream with a HOST source or without a subscriber closes (R59). -/
theorem portEntryChange_closes (owner : d.owner = n) (h : d.source = .host ∨ d.subscribers = []) :
    portEntryChange n id d = some (none, []) := by
  unfold portEntryChange
  rw [if_pos owner]
  rcases h with h | h <;> rw [h]
  cases d.source <;> rfl

/-- The port leaves a list it is in (R59). -/
theorem portEntryChange_leaves {before after' : List Port} (owner : d.owner ≠ n)
    (list : d.subscribers = before ++ n :: after') (first : n ∉ before) :
    portEntryChange n id d = some (some { d with subscribers := before ++ after' }, []) := by
  unfold portEntryChange
  rw [if_neg owner, if_pos (by rw [list]; simp), list, List.erase_append_right _ first, List.erase_cons_head]

theorem portEntryChange_none (owner : d.owner ≠ n) (stranger : n ∉ d.subscribers) :
    portEntryChange n id d = none := by
  unfold portEntryChange
  rw [if_neg owner, if_neg stranger]

/-- Only a new owner hears of a port entry (R59). -/
theorem portEntryChange_heard (n : Port) (id : StreamId) (d : Descriptor) (q : Port) :
    (portEntryChange n id d).heardBy q =
      if d.owner = n ∧ d.source ≠ .host ∧ d.subscribers.head? = some q then [.streamGained id n] else [] := by
  by_cases owner : d.owner = n
  · cases source : d.source with
    | host => rw [portEntryChange_closes owner (.inl source)]; simp [StreamChange.heardBy]
    | node p =>
      cases list : d.subscribers with
      | nil => rw [portEntryChange_closes owner (.inr list)]; simp [StreamChange.heardBy]
      | cons x l =>
        rw [portEntryChange_passes owner source list]
        by_cases e : x = q <;> simp [StreamChange.heardBy, owner, e]
  · rw [if_neg fun h => owner h.1]
    by_cases member : n ∈ d.subscribers
    · obtain ⟨before, after', list, first⟩ := List.eq_append_cons_of_mem member
      rw [portEntryChange_leaves owner list first]
      rfl
    · rw [portEntryChange_none owner member]
      rfl

end portEntry

/-- Settles O36: what the walk makes of each staged view, and what each port hears of it. -/
theorem portEntryPassesStreams : Obligations.PortEntryPassesStreams := by
  intro s n rest hproc hint
  have taken : s.nextInternal = some (.port n) := by simp [State.nextInternal, hproc, hint]
  refine ⟨s.internalEdit (portEntryChange n), ?_, State.internalEdit_frame hint, s.internalEdit_views _,
    fun id absent => State.internalEdit_unchanged (State.streamChange_of_absent absent), fun id d hd => ?_, fun q => ?_⟩
  · simp only [exec, execPortEntry, taken]
  · have made := State.streamChange_of_staged (change := portEntryChange n) hd
    refine ⟨fun q x l owner source list => ?_, fun owner h => ?_, fun before after' owner list first => ?_,
      fun owner stranger => ?_⟩
    · rw [State.internalEdit_changed (made.trans (portEntryChange_passes owner source list))]
      exact ⟨rfl, rfl⟩
    · rw [State.internalEdit_changed (made.trans (portEntryChange_closes owner h))]
      exact ⟨rfl, rfl⟩
    · rw [State.internalEdit_changed (made.trans (portEntryChange_leaves owner list first))]
      exact ⟨rfl, rfl⟩
    · exact State.internalEdit_unchanged (made.trans (portEntryChange_none owner stranger))
  · refine State.internalEdit_told fun id => ?_
    cases hd : (s.entry id).staged with
    | none => rw [State.streamChange_of_absent hd]; rfl
    | some d => rw [State.streamChange_of_staged hd]; exact portEntryChange_heard n id d q

/-! ### The loss of a node -/

section lost
variable {p : Pos} {id : StreamId} {d : Descriptor}

theorem lostChange_source (source : d.source = .node p) :
    lostChange p id d = some (none, closedNotices d (.streamClosed id .sourceLost (some p))) := if_pos source

/-- Without its sinks at a position a stream has no receiver left exactly when it had none elsewhere (R60). -/
theorem hasReceiver_without : ({ d with sinks := d.sinks.filter (· != p) } : Descriptor).hasReceiver = true ↔
    ¬ (d.sinks.all (· == p) = true ∧ d.ownerReceives = false ∧ d.subscribers = []) := by
  simp only [Descriptor.hasReceiver, Bool.or_eq_true, Bool.not_eq_true', List.isEmpty_eq_false_iff, ne_eq,
    List.filter_eq_nil_iff, List.all_eq_true, beq_iff_eq, bne_iff_ne, not_not]
  cases d.ownerReceives <;> tauto

/-- A stream that names the node as a sink loses that sink, or closes with no receiver left (R60). -/
theorem lostChange_sink (source : d.source ≠ .node p) (sink : p ∈ d.sinks) : lostChange p id d =
    if d.sinks.all (· == p) = true ∧ d.ownerReceives = false ∧ d.subscribers = [] then
      some (none, closedNotices d (.streamClosed id .sinksLost (some p)))
    else some (some { d with sinks := d.sinks.filter (· != p) }, [(d.owner, .sinkRemoved id p)]) := by
  unfold lostChange
  rw [if_neg source, if_pos sink]
  dsimp only
  by_cases closes : d.sinks.all (· == p) = true ∧ d.ownerReceives = false ∧ d.subscribers = []
  · rw [if_pos closes, if_neg (mt hasReceiver_without.mp (not_not.mpr closes))]
  · rw [if_neg closes, if_pos (hasReceiver_without.mpr closes)]

theorem lostChange_none (source : d.source ≠ .node p) (sink : p ∉ d.sinks) : lostChange p id d = none := by
  rw [lostChange, if_neg source, if_neg sink]

/-- What a port hears of a stream at the loss of a node (R60). -/
theorem lostChange_heard (p : Pos) (id : StreamId) (d : Descriptor) (q : Port) : (lostChange p id d).heardBy q =
    if d.source = .node p then noticesFor q (d.owner :: d.subscribers) (.streamClosed id .sourceLost (some p))
    else if p ∉ d.sinks then []
    else if d.sinks.all (· == p) = true ∧ d.ownerReceives = false ∧ d.subscribers = [] then
      noticesFor q (d.owner :: d.subscribers) (.streamClosed id .sinksLost (some p))
    else noticesFor q [d.owner] (.sinkRemoved id p) := by
  split
  · next source => rw [lostChange_source source]; exact closedNotices_heard _ _ _
  · next source =>
    split
    · next sink => rw [lostChange_none source sink]; rfl
    · next sink =>
      rw [lostChange_sink source (not_not.mp sink)]
      split
      · exact closedNotices_heard _ _ _
      · exact ownerNotice_heard _ _ _

end lost

/-- Settles O37: what the walk makes of each staged view, and what each port hears of it. -/
theorem lostEntryDropsNode : Obligations.LostEntryDropsNode := by
  intro s p rest hproc hint
  have taken : s.nextInternal = some (.lost p) := by simp [State.nextInternal, hproc, hint]
  refine ⟨s.internalEdit (lostChange p), ?_, State.internalEdit_frame hint, s.internalEdit_views _,
    fun id absent => State.internalEdit_unchanged (State.streamChange_of_absent absent), fun id d hd => ?_, fun q => ?_⟩
  · simp only [exec, execNodeEntryLost, taken]
  · have made := State.streamChange_of_staged (change := lostChange p) hd
    refine ⟨fun source => ?_, fun source sink => ?_, fun source sink => ?_⟩
    · rw [State.internalEdit_changed (made.trans (lostChange_source source))]
      exact ⟨rfl, rfl⟩
    · have made := made.trans (lostChange_sink source sink)
      split at made
      · next closes =>
        rw [State.internalEdit_changed made, if_pos closes]
        exact ⟨rfl, rfl⟩
      · next stays =>
        rw [State.internalEdit_changed made, if_neg stays]
        exact ⟨rfl, rfl⟩
    · exact State.internalEdit_unchanged (made.trans (lostChange_none source sink))
  · refine State.internalEdit_told fun id => ?_
    cases hd : (s.entry id).staged with
    | none => rw [State.streamChange_of_absent hd]; rfl
    | some d => rw [State.streamChange_of_staged hd]; exact lostChange_heard p id d q

/-! ### The change of a node -/

section changed
variable {p : Pos} {refs : List (StreamId × RefRole)} {id : StreamId} {d : Descriptor}

theorem changedChange_unnamed (h : refs.filter (fun r => r.1 == id) = []) : changedChange p refs id d = none := by
  rw [changedChange, h]
  rfl

/-- A SOURCE item closes the stream, whatever items follow it (R61). -/
theorem changedChange_source {more : List (StreamId × RefRole)}
    (h : refs.filter (fun r => r.1 == id) = (id, .source) :: more) : changedChange p refs id d =
      some (none, closedNotices d (.streamClosed id .nodeChanged (some p))) := by
  rw [changedChange, h]
  rfl

/-- Without one of its sinks a stream has no receiver left exactly when that was its one receiver (R61). -/
theorem hasReceiver_erase (sink : p ∈ d.sinks) : ({ d with sinks := d.sinks.erase p } : Descriptor).hasReceiver = true ↔
    ¬ (d.sinks.length = 1 ∧ d.ownerReceives = false ∧ d.subscribers = []) := by
  have length := List.length_erase_of_mem sink
  have positive := List.length_pos_of_mem sink
  have emptied : d.sinks.erase p = [] ↔ d.sinks.length = 1 := by
    rw [← List.length_eq_zero_iff]; omega
  simp only [Descriptor.hasReceiver, Bool.or_eq_true, Bool.not_eq_true', List.isEmpty_eq_false_iff, ne_eq, emptied]
  cases d.ownerReceives <;> tauto

/-- One SINK item takes one sink at the position out of the stream, or closes it with no receiver left (R61). -/
theorem changedChange_sink (h : refs.filter (fun r => r.1 == id) = [(id, .sink)]) : changedChange p refs id d =
    if p ∉ d.sinks then none
    else if d.sinks.length = 1 ∧ d.ownerReceives = false ∧ d.subscribers = [] then
      some (none, closedNotices d (.streamClosed id .sinksLost (some p)))
    else some (some { d with sinks := d.sinks.erase p }, [(d.owner, .sinkRemoved id p)]) := by
  rw [changedChange, h]
  show changedSteps p id [.sink] d = _
  unfold changedSteps
  by_cases sink : p ∈ d.sinks
  · rw [if_pos sink, if_neg (not_not.mpr sink)]
    dsimp only
    by_cases closes : d.sinks.length = 1 ∧ d.ownerReceives = false ∧ d.subscribers = []
    · rw [if_pos closes, if_neg (mt (hasReceiver_erase sink).mp (not_not.mpr closes))]
    · rw [if_neg closes, if_pos ((hasReceiver_erase sink).mpr closes)]
      rfl
  · rw [if_neg sink, if_pos sink]
    rfl

end changed

/-- Settles O38: what the items that name a stream make of it, and what each port hears of them. -/
theorem changedEntryFollowsReferences : Obligations.ChangedEntryFollowsReferences := by
  intro s p refs rest hproc hint
  have taken : s.nextInternal = some (.changed p refs) := by simp [State.nextInternal, hproc, hint]
  refine ⟨s.internalEdit (changedChange p refs), ?_, State.internalEdit_frame hint, s.internalEdit_views _,
    fun id h => State.internalEdit_unchanged ?_, fun id d hd => ?_, fun q => ?_, fun items q => ?_⟩
  · simp only [exec, execNodeEntryNodeChanged, taken]
  · cases hd : (s.entry id).staged with
    | none => exact State.streamChange_of_absent hd
    | some d =>
      rw [State.streamChange_of_staged hd]
      refine changedChange_unnamed (List.filter_eq_nil_iff.mpr fun r hr e => ?_)
      rcases h with absent | unnamed
      · rw [hd] at absent; cases absent
      · exact unnamed r.2 (eq_of_beq e ▸ hr)
  · have made := State.streamChange_of_staged (change := changedChange p refs) hd
    refine ⟨fun more h => ?_, fun h sink => ?_⟩
    · rw [State.internalEdit_changed (made.trans (changedChange_source h))]
      exact ⟨rfl, rfl⟩
    · have made := made.trans ((changedChange_sink h).trans (if_neg (not_not.mpr sink)))
      split at made
      · next closes => rw [State.internalEdit_changed made, if_pos closes]
      · next stays => rw [State.internalEdit_changed made, if_neg stays]
  · rw [State.internalEdit_port]
    exact HostPort.postEach_sameButNotices _ _
  · refine State.internalEdit_told fun id => ?_
    cases hd : (s.entry id).staged with
    | none => rw [State.streamChange_of_absent hd]; rfl
    | some d =>
      rw [State.streamChange_of_staged hd]
      rcases items id with h | h | ⟨more, h⟩
      · rw [changedChange_unnamed h, h]; rfl
      · rw [changedChange_sink h, h]
        dsimp only
        repeat' split
        · rfl
        · exact closedNotices_heard _ _ _
        · exact ownerNotice_heard _ _ _
      · rw [changedChange_source h, h]
        exact closedNotices_heard _ _ _

end Sys2Proof.Machine
end

section
/-! SUPPORT. The lapse of a port and the transactions that waited for it (R43, R171, R172). -/

namespace Sys2Proof.Machine

set_option Elab.async false

/-! ### The transactions that waited -/

/-- The framing is sound exactly when the length octet names the octets that came (R164). -/
theorem framed_iff {l : List Byte} :
    framed l = true ↔ 3 ≤ l.length ∧ l.length ≤ 32 ∧ l.head? = some (octet l.length) := by
  cases l with
  | nil => simp [framed]
  | cons b l =>
    have named (n : Nat) (hn : n ≤ 32) : b.toNat = n ↔ b = octet n :=
      ⟨fun h => by rw [← h, octet_toNat_self], fun h => by rw [h, octet_toNat (by omega)]⟩
    simp only [framed, Bool.and_eq_true, decide_eq_true_iff, beq_iff_eq, List.head?_cons, Option.some.injEq]
    constructor
    · rintro ⟨⟨low, high⟩, length⟩
      rw [length]
      exact ⟨low, high, (named _ high).mp rfl⟩
    · rintro ⟨low, high, head⟩
      have value := (named _ high).mpr head
      omega

/-- The request frame that a completed transaction carries, if it is a REQUEST of sound framing (R164). -/
def Txn.frame (t : Txn) : Option (List Byte) :=
  if t.kind = some .request ∧ 3 ≤ t.taken.length ∧ t.taken.length ≤ 32 ∧
      t.taken.head? = some (octet t.taken.length) then some t.taken
  else none

theorem Txn.frame_eq (t : Txn) :
    t.frame = if t.kind = some .request ∧ framed t.taken = true then some t.taken else none := by
  simp only [frame, framed_iff]

namespace HostPort

/-- The port with the frames of transactions that took effect one after another, as far as its queue has room (R161,
R164). -/
def joined (l : List Txn) (h : HostPort) : HostPort :=
  { h with requests := h.requests ++ (l.filterMap Txn.frame).take (4 - h.requests.length) }

theorem touchLease_of_not_attached {h : HostPort} (ha : h.attached = false) : h.touchLease = h := by
  simp [touchLease, ha]

/-- At a port that is not ATTACHED a completed transaction leaves no more than its frame (R162, R164, R184). -/
theorem finish_of_not_attached {h : HostPort} (ha : h.attached = false) (t : Txn) : h.finish t = h.joined [t] := by
  have unchanged (hf : t.frame = none) : h = h.joined [t] := by
    rw [joined, List.filterMap_cons_none hf]
    simp
  have taken : h.takeFrame t.taken =
      if framed t.taken = true ∧ h.requests.length < 4 then { h with requests := h.requests ++ [t.taken] } else h := by
    rw [takeFrame, raise_of_not_attached _ ha]
    simp only [Bool.and_eq_true, decide_eq_true_iff]
    rfl
  have eventset : h.takeEventset t.taken = h := by simp [takeEventset, ha]
  by_cases request : t.kind = some .request
  · unfold finish
    rw [request]
    dsimp only
    rw [taken]
    by_cases joins : framed t.taken = true ∧ h.requests.length < 4
    · obtain ⟨sound, room⟩ := joins
      have frame : t.frame = some t.taken := by rw [t.frame_eq, if_pos ⟨request, sound⟩]
      rw [if_pos ⟨sound, room⟩,
        touchLease_of_not_attached (h := { h with requests := h.requests ++ [t.taken] }) ha, joined,
        List.filterMap_cons_some frame, List.take_of_length_le (by simp; omega)]
      rfl
    · rw [if_neg joins, touchLease_of_not_attached ha]
      by_cases sound : framed t.taken = true
      · have full : 4 - h.requests.length = 0 := by
          have := mt (And.intro sound) joins
          omega
        simp [joined, full]
      · exact unchanged (by rw [t.frame_eq, if_neg fun h => sound h.2])
  · have effect : h.finish t = h := by
      unfold finish
      split
      · next k => exact absurd k request
      · rw [eventset, touchLease_of_not_attached ha]
      · rw [raise_of_not_attached _ ha, touchLease_of_not_attached ha]
      all_goals exact touchLease_of_not_attached ha
    rw [effect]
    exact unchanged (by rw [t.frame_eq, if_neg fun h => request h.1])

theorem joined_joined (l m : List Txn) (h : HostPort) : (h.joined l).joined m = h.joined (l ++ m) := by
  unfold joined
  rw [List.filterMap_append, List.take_append, ← List.append_assoc]
  congr 3
  rw [List.length_append, List.length_take]
  omega

end HostPort

namespace State

/-- A change of a port looks at that port alone. -/
theorem modPort_congr {s : State} {p : Port} {f g : HostPort → HostPort} (h : f (s.port p) = g (s.port p)) :
    s.modPort p f = s.modPort p g := by
  unfold modPort Table.modify
  rw [show f (s.ports.get p) = g (s.ports.get p) from h]

theorem modPort_of_same {s : State} {p : Port} {f : HostPort → HostPort} (h : f (s.port p) = s.port p) :
    s.modPort p f = s := by
  rw [modPort_congr (g := id) h]
  unfold modPort Table.modify
  rw [id, Table.set_same]

/-- At a port that is not ATTACHED a completed transaction reaches nothing but the request queue (R145, R164). -/
theorem finish_of_not_attached {s : State} {p : Port} (ha : (s.port p).attached = false) (t : Txn) :
    s.finish p t = s.modPort p (HostPort.joined [t]) := by
  have finished (u : State) (hu : (u.port p).attached = false) :
      (u.modPort p fun h => h.finish t) = u.modPort p (HostPort.joined [t]) :=
    modPort_congr (HostPort.finish_of_not_attached hu t)
  unfold finish
  split
  · have dropped : s.takePost p t.taken = s := by
      have judged : s.judgePost p t.taken = .dropped := by simp [judgePost, ha]
      unfold takePost
      rw [judged]
      exact modPort_of_same (f := fun h => h.raiseIf false .protocol) rfl
    rw [dropped]
    exact finished s ha
  · exact finished s ha

/-- The transactions that waited for the lapse of a port no longer ATTACHED leave their frames (R171). -/
theorem finishEnded_of_not_attached {s : State} {p : Port} (ha : (s.port p).attached = false) :
    s.finishEnded p = s.modPort p fun h => ({ h with ended := [] } : HostPort).joined h.ended := by
  have each (l : List Txn) : ∀ u : State, (u.port p).attached = false →
      l.foldl (fun s t => s.finish p t) u = u.modPort p (HostPort.joined l) := by
    induction l with
    | nil =>
      intro u _
      exact (modPort_of_same (by simp [HostPort.joined])).symm
    | cons t l ih =>
      intro u hu
      rw [List.foldl_cons, finish_of_not_attached hu, ih _ (by rw [modPort_port_self]; exact hu), modPort_modPort]
      exact modPort_congr (HostPort.joined_joined [t] l _)
  unfold finishEnded
  rw [each _ _ (by rw [modPort_port_self]; exact ha), modPort_modPort]
  exact modPort_congr rfl

/-! ### The lapse -/

/-- An entry for a port waits already, or is put at the end (R57). -/
theorem enqueue_port (l : List InternalEntry) (p : Port) :
    enqueue l (.port p) = if .port p ∈ l then l else l ++ [.port p] := by
  have waits : l.any (InternalEntry.port p).sameSubject = true ↔ .port p ∈ l := by
    rw [List.any_eq_true]
    refine ⟨fun ⟨e, he, same⟩ => ?_, fun h => ⟨_, h, beq_self_eq_true p⟩⟩
    cases e with
    | port q => rwa [← (eq_of_beq same : p = q)] at he
    | lost | changed => cases same
  simp only [enqueue, waits]

/-- The state after the lapse of an ATTACHED port (R43, R147, R171, R172). -/
def lapsed (s : State) (p : Port) : State :=
  { s with
    ports := s.ports.modify p fun h =>
      { h with
        state := .lapsed, leaseTimer := none, lapseDue := false
        requests := ((s.port p).ended.filterMap Txn.frame).take 4
        responses := [], events := EventUnit.cleared, delivery := [], gaps := Table.fill 0
        txn := h.txn.map fun x => { x with removes := false }
        ended := [] }
    admission :=
      { s.admission with
        internal := if .port p ∈ s.admission.internal then s.admission.internal else s.admission.internal ++ [.port p]
        batchTickets := s.admission.batchTickets.set p 0 }
    turnover := { s.turnover with outTickets := s.turnover.outTickets.set p 0 }
    mover :=
      { s.mover with
        posts := Table.tabulate fun id =>
          if ∃ d, (s.entry id).inForce = some d ∧ d.owner = p then .empty else s.mover.posts.get id } }

theorem lapse_of_attached {s : State} {p : Port} (ha : (s.port p).attached = true) : s.lapse p = s.lapsed p := by
  have ended : s.lapse p = ((s.endSession p).modPort p fun h =>
      { h with state := .lapsed, lapseDue := false, leaseTimer := none }).finishEnded p := by
    unfold lapse; rw [if_pos ha]
  rw [ended, finishEnded_of_not_attached (by rw [modPort_port_self]; rfl), modPort_modPort, endSession_eq,
    enqueue_port]
  unfold modPort lapsed
  simp only [Table.modify_modify]
  congr 1

/-- At a port that is ATTACHED no longer a lapse ends nothing but itself (R172). -/
theorem lapse_of_not_attached {s : State} {p : Port} (ha : (s.port p).attached = false) :
    s.lapse p = s.modPort p fun h => ({ h with lapseDue := false, ended := [] } : HostPort).joined h.ended := by
  have ended : s.lapse p = (s.modPort p fun h => { h with lapseDue := false }).finishEnded p := by
    unfold lapse; rw [if_neg (Bool.eq_false_iff.mp ha)]
  rw [ended, finishEnded_of_not_attached (by rw [modPort_port_self]; exact ha), modPort_modPort]

theorem processingOf_iff {s : State} {p : Port} :
    s.processingOf p = true ↔ ∃ f, s.admission.processing = some (.frame p f) := by
  unfold processingOf
  split
  · next q f h => rw [h, beq_iff_eq]; exact ⟨fun e => ⟨f, by rw [e]⟩, fun ⟨_, e⟩ => by cases e; rfl⟩
  · next h => rw [h]; simp
  · next h => rw [h]; simp

theorem grantLapse_of_processing {s : State} {p : Port} {f : List Byte}
    (h : s.admission.processing = some (.frame p f)) :
    s.grantLapse p = s := if_pos (processingOf_iff.mpr ⟨f, h⟩)

/-- A due lapse of a port without an item in processing is carried out (R43, R172). -/
theorem grantLapse_of_due {s : State} {p : Port} (h : ∀ f, s.admission.processing ≠ some (.frame p f))
    (due : (s.port p).lapseDue = true) : s.grantLapse p = s.lapse p := by
  have idle : ¬ s.processingOf p = true := fun busy => by
    obtain ⟨f, hf⟩ := processingOf_iff.mp busy
    exact h f hf
  unfold grantLapse settleLapse
  rw [if_neg idle, if_pos due]

/-- A lease that expires with no item of its port in processing ends the session at once (R43, R171). -/
theorem lapse_of_expired {s : State} {p : Port} (ha : (s.port p).attached = true)
    (free : ∀ f, s.admission.processing ≠ some (.frame p f)) :
    (s.modPort p fun h => { h with leaseTimer := none, lapseDue := true }).grantLapse p = s.lapsed p := by
  rw [grantLapse_of_due (s := s.modPort p fun h => { h with leaseTimer := none, lapseDue := true }) free
    (by rw [modPort_port_self]), lapse_of_attached (by rw [modPort_port_self]; exact ha)]
  unfold lapsed
  rw [modPort_port_self]
  simp only [modPort_ports, Table.modify_modify]
  rfl

/-! ### A request's turn that comes while a lapse is due -/

/-- With one lapse due and no item in processing, that lapse is the one carried out (R43, R172). -/
theorem settleLapses_of_one {s : State} {p : Port} (ha : (s.port p).attached = true) (due : (s.port p).lapseDue = true)
    (others : ∀ q, q ≠ p → (s.port q).lapseDue = false) (idle : s.admission.processing = none) :
    s.settleLapses = s.lapsed p := by
  have none_due (u : State) (l : List Port) (h : ∀ q ∈ l, (u.port q).lapseDue = false) : l.foldl grantLapse u = u := by
    induction l with
    | nil => rfl
    | cons q l ih =>
      rw [List.foldl_cons, grantLapse_of_not_due (h q (by simp))]
      exact ih fun r hr => h r (by simp [hr])
  obtain ⟨before, after', ports, first⟩ := List.eq_append_cons_of_mem (List.mem_finRange p)
  have cleared (q : Port) : ((s.lapsed p).port q).lapseDue = false := by
    by_cases e : p = q
    · subst e
      rw [← lapse_of_attached ha]
      exact s.lapse_not_due p
    · exact (congrArg HostPort.lapseDue (Table.get_modify_ne _ _ e)).trans (others q (Ne.symm e))
  unfold settleLapses
  rw [show allPorts = before ++ p :: after' from ports, List.foldl_append, List.foldl_cons,
    none_due s before fun q hq => others q (fun e => first (e ▸ hq)),
    grantLapse_of_due (by rw [idle]; nofun) due, lapse_of_attached ha, none_due _ _ fun q _ => cleared q]

/-- Nothing is taken while an internal entry waits (R40). -/
theorem pick_of_internal {s : State} (h : s.admission.internal ≠ []) : s.pick = none := by
  have waits : s.admission.internal.isEmpty = false := by simpa using h
  simp [pick, waits]

/-- A request command that comes while its state grants no frame takes none (R40, R43). -/
theorem takeRequest_of_none {s u : State} (hu : s.settleLapses = u) (h : u.pick = none) (k : RequestKind)
    (act : Port → List Byte → Effect) : s.takeRequest k act = u := by
  have settled : u.settleUnknown = u := by
    have unknown : u.takeUnknown = u := by unfold takeUnknown; rw [h]
    have steps (n : Nat) : u.takeUnknowns n = u := by
      induction n with
      | zero => rfl
      | succ n ih => rw [takeUnknowns, unknown, ih]
    exact steps 16
  unfold takeRequest
  dsimp only
  rw [hu, settled, h]

end State

/-! ### A REQUEST that completes while the lapse is due -/

/-- A REQUEST in progress, with the octets taken so far. -/
def Txn.requesting (taken : List Byte) : Txn :=
  { kind := some .request, bits := [], taken := taken, sending := [], removes := false }

/-- The octets after a REQUEST's header are taken in while octets of 0 go out (R162, R164). -/
theorem HostPort.clockOctets_requesting (block : HostPort → List Byte) (octets : List Byte) :
    ∀ (h : HostPort) (taken : List Byte), h.txn = some (Txn.requesting taken) →
      octets.foldl (HostPort.clockOctet block) h =
        { h with txn := some (Txn.requesting (taken ++ octets)), hdo := h.hdo ++ spiBits (zeros octets.length) } := by
  induction octets with
  | nil =>
    intro h taken ht
    have zero : h.hdo ++ spiBits (zeros 0) = h.hdo := List.append_nil _
    rw [List.foldl_nil, List.append_nil, List.length_nil, zero, ← ht]
  | cons b octets ih =>
    intro h taken ht
    have first : h.clockOctet block b =
        { h with txn := some (Txn.requesting (taken ++ [b])), hdo := h.hdo ++ octetBits 0 } := by
      rw [clockOctet, ht]
      rfl
    rw [List.foldl_cons, first, ih _ _ rfl]
    simp only [List.append_assoc]
    rfl

/-- A whole REQUEST clocked at a port with no transaction in progress (R162, R164). -/
theorem State.clocked_request {s : State} {p : Port} (h : (s.port p).txn = none) (low : BitVec 4) (octets : List Byte) :
    s.clocked p (txnBits 1 low octets) = s.modPort p fun h =>
      { h with
        txn := some (Txn.requesting octets)
        hdo := spiBits (h.statusOctet s.running :: zeros octets.length) } := by
  have kind : headerKind ((1 : BitVec 4) ++ low) = .request := by revert low; decide
  have selected : (s.port p).select s.running =
      { s.port p with txn := some (Txn.header ((s.port p).statusOctet s.running)), hdo := [] } := by
    simp [HostPort.select, h]
  have header : ((s.port p).select s.running).clockOctet (s.blockOf p) ((1 : BitVec 4) ++ low) =
      { s.port p with txn := some (Txn.requesting []), hdo := octetBits ((s.port p).statusOctet s.running) } := by
    rw [selected]
    show ({ s.port p with
        txn := some { Txn.header ((s.port p).statusOctet s.running) with
          bits := (octetBits ((1 : BitVec 4) ++ low)).take 7 }
        hdo := octetBits ((s.port p).statusOctet s.running) } : HostPort).serve
          (headerKind ((1 : BitVec 4) ++ low)) _ = _
    rw [kind]
    rfl
  have clocked := clocked_txnBits h 1 low octets
  rw [header, HostPort.clockOctets_requesting _ _ _ [] rfl] at clocked
  have whole : s.clocked p (txnBits 1 low octets) = { s with
      ports := s.ports.set p ((s.clocked p (txnBits 1 low octets)).port p)
      freeCount :=
        if (s.port p).kind = none ∧ ((s.clocked p (txnBits 1 low octets)).port p).kind = some .status then
          s.freeCount + 1 else s.freeCount } := by
    unfold State.clocked State.port
    dsimp only
    rw [Table.get_set_self]
  rw [clocked] at whole
  rw [whole, if_neg (fun status => by cases status.2)]
  rfl

/-- A whole REQUEST that completes while a lapse waits for its port's item waits too (R171). -/
theorem State.transact_request_waits {s : State} {p : Port} {f : List Byte}
    (item : s.admission.processing = some (.frame p f)) (due : (s.port p).lapseDue = true)
    (txn : (s.port p).txn = none) (held : (s.port p).heldOver = false) (nreset : s.nresetLow = false)
    (low : BitVec 4) (octets : List Byte) :
    s.transact .request p (txnBits 1 low octets) true = s.modPort p fun h =>
      { h with
        hdo := spiBits (h.statusOctet s.running :: zeros octets.length)
        ended := h.ended ++
          [{ kind := some .request, bits := [], taken := octets, sending := [], removes := false }] } := by
  have listens : ¬ (s.nresetLow || (s.port p).heldOver) = true := by rw [nreset, held]; nofun
  unfold transact
  rw [if_neg listens]
  dsimp only
  rw [grantLapse_of_processing item, clocked_request txn, modPort_port_self, if_pos (.inr rfl), if_pos rfl]
  unfold release
  rw [modPort_port_self]
  dsimp only
  rw [if_neg (show (Txn.requesting octets).kind ≠ none from nofun), modPort_modPort, modPort_port_self,
    if_pos (show (s.port p).lapseDue = true from due), modPort_modPort]
  refine modPort_congr ?_
  rw [← txn]
  rfl

/-- Settles O57: the lapse at an ATTACHED port and at another, and when an expiry, a lapse, a request and a
transaction carry it out or leave it due. -/
theorem lapseEndsSession : Obligations.LapseEndsSession := by
  intro s p completed lapsed
  have expires (timer : (s.port p).leaseTimer ≠ none) :
      s.modPort p HostPort.expire = s.modPort p fun h => { h with leaseTimer := none, lapseDue := true } :=
    State.modPort_congr (if_pos (by rwa [Option.isSome_iff_ne_none]))
  refine ⟨fun ha => ⟨fun free => ⟨fun timer => congrArg Host.Outcome.next ?_, fun due => congrArg Host.Outcome.next ?_⟩,
      fun straps k due others idle => ?_⟩,
    fun ha due free => congrArg Host.Outcome.next ?_,
    fun f item => ⟨fun timer => congrArg Host.Outcome.next ?_, congrArg Host.Outcome.next ?_,
      fun low octets due txn held nreset => ?_⟩,
    fun due => ⟨congrArg Host.Outcome.next (State.grantLapse_of_not_due due),
      fun timer => congrArg Host.Outcome.next ?_⟩⟩
  · rw [expires timer, State.lapse_of_expired ha free]
    rfl
  · rw [State.grantLapse_of_due free due, State.lapse_of_attached ha]
    rfl
  · obtain ⟨act, e⟩ := exec_requestCommand straps k
    refine (e s).trans (congrArg _ ?_)
    refine State.takeRequest_of_none (State.settleLapses_of_one ha due others idle) (State.pick_of_internal ?_) k act
    unfold State.lapsed
    dsimp only
    split
    · next h => exact List.ne_nil_of_mem h
    · simp
  · rw [State.grantLapse_of_due free due, State.lapse_of_not_attached ha]
    exact State.modPort_congr rfl
  · rw [expires timer]
    exact State.grantLapse_of_processing item
  · exact State.grantLapse_of_processing item
  · exact congrArg Host.Outcome.next (State.transact_request_waits item due txn held nreset low octets)
  · have stays : s.modPort p HostPort.expire = s := State.modPort_of_same (by simp [HostPort.expire, timer])
    rw [stays]
    exact State.grantLapse_of_not_due due

end Sys2Proof.Machine
end

section
/-! SUPPORT. How an exchange of a refresh concludes (R116, R123 to R125). -/

namespace Sys2Proof.Machine

set_option Elab.async false

/-- An entry is queued behind those for other ports and positions (R57). -/
theorem enqueue_of_new {l : List InternalEntry} {e : InternalEntry} (h : ∀ i ∈ l, i.sameSubject e = false) :
    enqueue l e = l ++ [e] := by
  refine if_neg fun waits => ?_
  obtain ⟨i, hi, same⟩ := List.any_eq_true.mp waits
  have same := (i.sameSubject_iff e).mpr ((e.sameSubject_iff i).mp same).symm
  exact Bool.false_ne_true ((h i hi).symm.trans same)

namespace State

/-- What a conclusion of a refresh's exchange leaves before the end of the return: the exchange, the refresh, the entry
of its node, and the freeze claim that this may make (R71, R123 to R125). -/
def refreshLeft (s : State) (p : Pos) (g : Ring) (x' : Option Exchange) (refresh : Option Refresh) (u : NodeEntry)
    (claim : Bool) : State :=
  { s with
    ring := g
    nodes := { s.nodes with entries := s.nodes.entries.set p u }
    control := { s.control with exchange := x', attempt := none, refresh := refresh }
    turnover := { s.turnover with claim := s.turnover.claim || claim } }

/-- A return in which a refresh's exchange concludes so, told by the state before it. -/
def refreshLeaves (s t : State) (rest : List CycleRecord) (p : Pos) (g : Ring) (x' : Option Exchange)
    (refresh : Option Refresh) (u : NodeEntry) (claim : Bool) : Prop :=
  t = { s with
        ports := t.ports, ring := g
        nodes := { s.nodes with entries := s.nodes.entries.set p u }
        control := { s.control with exchange := x', attempt := none, refresh := refresh }
        turnover := t.turnover
        admission := { s.admission with internal := t.admission.internal }
        plans := { s.plans with retired := t.plans.retired }
        mover := { s.mover with retiredDelivery := t.mover.retiredDelivery } } ∧
    s.goesOn t s.turnover.work claim ∧ s.retiresAfter t rest

section refresh
variable {s : State} {r : CycleRecord} {rest : List CycleRecord} {x : Exchange} {p : Pos} {g : Ring} {f : Refresh}

/-- The end of the return adds the work list's progress and the retired plan (R34, R78). -/
theorem ends_of_refreshLeft {claim : Bool} (hsent : g.sent = rest) (hq : s.nothingListed r)
    (waits : s.turnover.state = .distributing → claim = false) (cls : ReturnClass) (x' : Option Exchange)
    (refresh : Option Refresh) (u : NodeEntry) (ports : Table HostPort 4) (internal : List InternalEntry) :
    let v : State := { s.refreshLeft p g x' refresh u claim with
      ports := ports, admission := { s.admission with internal := internal } }
    let t := v.concluded r cls
    (t.ports = ports ∧ t.admission = { s.admission with internal := internal }) ∧
      s.refreshLeaves t rest p g x' refresh u claim := by
  intro v t
  have ends : t = v.discardRetired.advanceWork := concluded_of_nothingListed (s := s) (u := v) rfl hq cls
  rw [ends]
  refine ⟨⟨rfl, rfl⟩, rfl, goesOn_ends (fun h => ?_) (fun _ => rfl), retiresAfter_ends rfl rfl (congrArg _ hsent)⟩
  show { s.turnover with claim := s.turnover.claim || claim } = s.turnover
  rw [waits h, Bool.or_false]

/-- A conclusion that reaches neither the node nor a port. -/
theorem ends_of_control (hsent : g.sent = rest) (hq : s.nothingListed r) (cls : ReturnClass) (x' : Option Exchange)
    (refresh : Option Refresh) :
    let v : State := { s with
      ring := g, control := { s.control with exchange := x', attempt := none, refresh := refresh } }
    let t := v.concluded r cls
    (t.ports = s.ports ∧ t.admission = s.admission) ∧ s.refreshLeaves t rest p g x' refresh (s.node p) false := by
  have stays : s.refreshLeft p g x' refresh (s.node p) false = { s with
      ring := g, control := { s.control with exchange := x', attempt := none, refresh := refresh } } := by
    unfold refreshLeft
    rw [Bool.or_false, show s.nodes.entries.set p (s.node p) = s.nodes.entries from Table.set_same _ _]
  have ends := ends_of_refreshLeft (s := s) (p := p) (claim := false) hsent hq (fun _ => rfl) cls x' refresh (s.node p)
    s.ports s.admission.internal
  rw [stays] at ends
  exact ends

/-- The claim that a change of the STALE node's entry makes (R71). -/
def refreshClaim (s : State) (p : Pos) (u : NodeEntry) : Bool :=
  decide (s.turnover.state = .waiting ∧ (s.node p).held = some (s.turnover.epoch + 1) ∧
    (u.state ≠ .stale ∨ u.held ≠ (s.node p).held))

/-- A node that changes its state, or records the in-force epoch, holds the guard no longer (R70, R71). -/
theorem refreshClaim_eq {u : NodeEntry} (h : u.state ≠ .stale ∨ u.held = some s.turnover.epoch) :
    s.refreshClaim p u = decide (s.turnover.state = .waiting ∧ (s.node p).held = some (s.turnover.epoch + 1)) := by
  have next : s.turnover.epoch ≠ s.turnover.epoch + 1 := by generalize s.turnover.epoch = e; revert e; decide
  unfold refreshClaim
  refine decide_eq_decide.mpr (and_congr_right fun _ => ⟨And.left, fun held => ⟨held, h.imp id fun new => ?_⟩⟩)
  rw [new, held]
  exact fun e => next (Option.some.inj e)

/-- With its state and its held epoch as they were, the node claims nothing (R71). -/
theorem refreshClaim_of_same {u : NodeEntry} (state : u.state = .stale) (held : u.held = (s.node p).held) :
    s.refreshClaim p u = false := by simp [refreshClaim, state, held]

/-- The exchange closed and the refresh ended. -/
def refreshOver (s : State) (g : Ring) : State :=
  { s with ring := g, control := { s.control with exchange := none, attempt := none, refresh := none } }

/-- The entry of the STALE node changed as its refresh ends (R71, R129). -/
theorem refreshOver_changeNode (hg : g.state = .running) (stale : (s.node p).state = .stale) (h : NodeEntry → NodeEntry)
    (cause : NodeCause) :
    let u := h (s.node p)
    (s.refreshOver g).changeNode p h cause = { s.refreshLeft p g none none u (s.refreshClaim p u) with
      ports := if u.state = .stale then s.ports else
        s.ports.map fun h => (h.post (.nodeState p u.state u.held u.failures cause)).raise .ringChange } := by
  intro u
  have changed := changeNode_of_running (s := s.refreshOver g) (by simp [running, refreshOver, hg]) p h cause
  have old : (s.refreshOver g).node p = s.node p := rfl
  dsimp only at changed
  simp only [old, stale, true_and] at changed
  exact changed

/-- An entry changed with its state as it was is told to no port (R129). -/
theorem updateNode_eq_changeNode {h : NodeEntry → NodeEntry} (same : (h (s.node p)).state = (s.node p).state)
    (cause : NodeCause) : s.updateNode p h = s.changeNode p h cause := by
  have silent : (s.running && (s.node p).state != (h (s.node p)).state) = false := by simp [same]
  unfold changeNode
  dsimp only
  rw [silent]
  rfl

theorem refreshOver_updateNode (hg : g.state = .running) (stale : (s.node p).state = .stale) (h : NodeEntry → NodeEntry)
    (same : (h (s.node p)).state = .stale) :
    (s.refreshOver g).updateNode p h =
      s.refreshLeft p g none none (h (s.node p)) (s.refreshClaim p (h (s.node p))) := by
  rw [updateNode_eq_changeNode (s := s.refreshOver g) (same.trans stale.symm) .refresh,
    refreshOver_changeNode hg stale]
  simp only [same, if_true]
  rfl

/-! ### LOADACK and NAK -/

/-- A LOADACK to a part before the last (R123, R125). -/
theorem ackHeard_refresh_earlier (huser : x.user = .refresh) (hf : s.control.refresh = some f) (h : f.next < f.parts) :
    ({ s with ring := g } : State).ackHeard x = { s with
      ring := g
      control :=
        { s.control with
          exchange := none, attempt := none
          refresh := if f.ended then none else some { f with next := f.next + 1 } } } := by
  rw [ackHeard, huser]
  show ({ s with ring := g } : State).closeExchange.refreshAcked = _
  unfold refreshAcked
  rw [show ({ s with ring := g } : State).closeExchange.control.refresh = some f from hf]
  dsimp only
  rw [if_pos h, if_pos h]
  split <;> rfl

/-- A LOADACK to the last part (R123 to R125). -/
theorem ackHeard_refresh_last (huser : x.user = .refresh) (hf : s.control.refresh = some f) (h : f.parts ≤ f.next) :
    ({ s with ring := g } : State).ackHeard x =
      if f.ended then (s.refreshOver g).updateNode f.position fun e => { e with held := some s.turnover.epoch }
      else (s.refreshOver g).changeNode f.position
        (fun e => { e with state := .ready, held := some s.turnover.epoch, failures := 0 }) .refresh := by
  rw [ackHeard, huser]
  show ({ s with ring := g } : State).closeExchange.refreshAcked = _
  unfold refreshAcked
  rw [show ({ s with ring := g } : State).closeExchange.control.refresh = some f from hf]
  dsimp only
  rw [if_neg (Nat.not_lt.mpr h), if_neg (Nat.not_lt.mpr h)]
  rfl

/-- A NAK with attempts left starts again from part 1, or is the last of a refresh that has ended (R116, R123,
R125). -/
theorem nakHeard_refresh (hp : x.message.position = some p) (huser : x.user = .refresh)
    (hf : s.control.refresh = some f) (again : x.failed + 1 ≤ x.limit) :
    ({ s with ring := g } : State).nakHeard x =
      if f.ended then s.refreshOver g
      else { s with
        ring := g
        control :=
          { s.control with
            exchange := some { x with
              failed := x.failed + 1
              message := .tapload p s.plans.inForce.epoch 1 (partCount (s.plans.inForce.taps.get p))
                ((s.plans.inForce.taps.get p).take 3) }
            attempt := none
            refresh := some { f with next := 1 } } } := by
  have part : ({ s with ring := g } : State).firstPart x p =
      .tapload p s.plans.inForce.epoch 1 (partCount (s.plans.inForce.taps.get p))
        ((s.plans.inForce.taps.get p).take 3) := by
    unfold firstPart
    simp only [huser]
    rfl
  have ended : s.control.refreshEnded = f.ended := by rw [Control.refreshEnded, hf]
  unfold nakHeard
  rw [hp]
  dsimp only
  rw [if_neg (Nat.not_lt.mpr again), part, huser]
  dsimp only
  rw [ended]
  split
  · rfl
  · simp only [retryExchange, hf]
    rfl

theorem nakHeard_refresh_spent (hp : x.message.position = some p) (huser : x.user = .refresh)
    (spent : x.limit < x.failed + 1) :
    ({ s with ring := g } : State).nakHeard x = ({ s with ring := g } : State).closeExchange.giveUp .refresh p := by
  rw [nakHeard, hp, huser]
  exact if_pos spent

/-! ### The attempts spent -/

/-- A failure that leaves the node STALE (R124). -/
theorem giveUp_refresh_counts (hg : g.state = .running) (stale : (s.node p).state = .stale)
    (h : (s.node p).failures + 1 < 4) :
    ({ s with ring := g } : State).closeExchange.giveUp .refresh p = s.refreshLeft p g none none
      { s.node p with failures := (s.node p).failures + 1 } false := by
  have counted := refreshOver_updateNode (g := g) hg stale (fun e => { e with failures := e.failures + 1 }) stale
  rw [refreshClaim_of_same (u := { s.node p with failures := (s.node p).failures + 1 }) stale rfl] at counted
  exact (if_neg (Nat.not_le.mpr h)).trans counted

/-- The fourth failure makes the node LOST and queues its entry (R57, R124). -/
theorem giveUp_refresh_loses (h : 4 ≤ (s.node p).failures + 1) :
    ({ s with ring := g } : State).closeExchange.giveUp .refresh p =
      ((s.refreshOver g).changeNode p (fun e => { e with state := .lost, failures := e.failures + 1 })
        .refreshFailed).queueInternal (.lost p) :=
  if_pos h

end refresh

end State

/-- Settles O53: the change that each conclusion makes, and the end of the return from there. -/
theorem refreshConcludes : Obligations.RefreshConcludes := by
  intro s r rest x a f e taps hstate ha hq huser hf _ hm stale left old guard same told c g octets hears fails
  have position : x.message.position = some f.position := by rw [hm]; rfl
  have heard {kind : Byte} (h : hears kind) : g.sent = rest ∧ g.state = .running := by
    obtain ⟨sent, state⟩ := State.returnsGood_ring h.1
    exact ⟨sent, state.trans hstate⟩
  have acks (h : hears 0x21) : ∃ d : Nat, exec c s = .next
      ((({ s with ring := g } : State).ackHeard x).concluded r (.good octets)) := by
    obtain ⟨good, reply⟩ := h
    obtain ⟨d, hexec⟩ := State.exec_returnsGood ha.1 good
    exact ⟨d, by rw [hexec, State.channel_of_ack ha g d ((hear_tapload hm).1.mpr reply)]⟩
  have naks (h : hears 0x23) : ∃ d : Nat, exec c s = .next
      ((({ s with ring := g } : State).nakHeard x).concluded r (.good octets)) := by
    obtain ⟨good, reply⟩ := h
    obtain ⟨d, hexec⟩ := State.exec_returnsGood ha.1 good
    exact ⟨d, by rw [hexec, State.channel_of_nak ha g d ((hear_tapload hm).2.mpr reply)]⟩
  refine ⟨fun ack earlier => ?_, fun ack last goes => ?_, fun ack last ended => ?_, fun failed again => ?_,
    fun nak again goes => ?_, fun nak again ended => ?_, fun failed spent => ?_⟩
  · obtain ⟨-, hexec⟩ := acks ack
    rw [State.ackHeard_refresh_earlier huser hf earlier] at hexec
    obtain ⟨sent, -⟩ := heard ack
    exact ⟨_, hexec, State.ends_of_control sent hq _ none _⟩
  · obtain ⟨-, hexec⟩ := acks ack
    obtain ⟨sent, running⟩ := heard ack
    rw [State.ackHeard_refresh_last huser hf last, if_neg (Bool.eq_false_iff.mp goes),
      State.refreshOver_changeNode running stale, State.refreshClaim_eq (.inl (by nofun))] at hexec
    obtain ⟨⟨ports, admission⟩, ends⟩ := State.ends_of_refreshLeft (s := s) (p := f.position) (claim := guard) sent hq
      (fun h => by simp [guard, h]) (.good octets) none none
      { old with state := .ready, held := some s.turnover.epoch, failures := 0 }
      (s.ports.map fun h =>
        (h.post (.nodeState f.position .ready (some s.turnover.epoch) 0 .refresh)).raise .ringChange)
      s.admission.internal
    exact ⟨_, _, hexec, rfl, ends, fun q => (congrArg (Table.get · q) ports).trans (Table.get_map _ _ _), admission⟩
  · obtain ⟨-, hexec⟩ := acks ack
    obtain ⟨sent, running⟩ := heard ack
    rw [State.ackHeard_refresh_last huser hf last, if_pos ended,
      State.refreshOver_updateNode running stale _ stale, State.refreshClaim_eq (.inr rfl)] at hexec
    exact ⟨_, hexec, State.ends_of_refreshLeft (s := s) (p := f.position) (claim := guard) sent hq
      (fun h => by simp [guard, h]) (.good octets) none none { old with held := some s.turnover.epoch } s.ports
      s.admission.internal⟩
  · obtain ⟨cls, hexec⟩ := State.exec_failsAttempt ha failed
    obtain ⟨sent, -⟩ := State.failsAttempt_ring failed
    rw [State.attemptFailed_again position again] at hexec
    have ends := State.ends_of_control (s := s) (p := f.position) sent hq cls (some { x with failed := x.failed + 1 })
      s.control.refresh
    rw [hf] at ends
    refine ⟨_, hexec, ?_⟩
    rw [State.retryExchange]
    dsimp only
    rw [hf]
    exact ends
  · obtain ⟨-, hexec⟩ := naks nak
    obtain ⟨sent, -⟩ := heard nak
    rw [State.nakHeard_refresh position huser hf again, if_neg (Bool.eq_false_iff.mp goes)] at hexec
    obtain ⟨one, all, few⟩ := partCount_bounds (s.plans.inForce.taps.get f.position)
    obtain ⟨unmoved, ends⟩ := State.ends_of_control (s := s) (p := f.position) sent hq (.good octets) (some { x with
        failed := x.failed + 1
        message := .tapload f.position s.plans.inForce.epoch 1 (partCount (s.plans.inForce.taps.get f.position))
          ((s.plans.inForce.taps.get f.position).take 3) }) (some { f with next := 1 })
    exact ⟨_, _, hexec, unmoved, ends, one, all, few.symm⟩
  · obtain ⟨-, hexec⟩ := naks nak
    obtain ⟨sent, -⟩ := heard nak
    rw [State.nakHeard_refresh position huser hf again, if_pos ended] at hexec
    exact ⟨_, hexec, State.ends_of_control sent hq _ none none⟩
  · have given : ∃ cls, exec c s = .next
        ((({ s with ring := g } : State).closeExchange.giveUp .refresh f.position).concluded r cls) ∧
          g.sent = rest ∧ g.state = .running := by
      obtain failed | nak := failed
      · obtain ⟨cls, hexec⟩ := State.exec_failsAttempt ha failed
        obtain ⟨sent, state⟩ := State.failsAttempt_ring failed
        rw [State.attemptFailed_spent position spent, huser] at hexec
        exact ⟨cls, hexec, sent, state.trans hstate⟩
      · obtain ⟨-, hexec⟩ := naks nak
        rw [State.nakHeard_refresh_spent position huser spent] at hexec
        exact ⟨_, hexec, heard nak⟩
    obtain ⟨cls, hexec, sent, running⟩ := given
    refine ⟨fun few => ?_, fun many new => ?_⟩
    · rw [State.giveUp_refresh_counts running stale few] at hexec
      exact ⟨_, hexec, State.ends_of_refreshLeft (s := s) (p := f.position) (claim := false) sent hq (fun _ => rfl) cls
        none none { old with failures := old.failures + 1 } s.ports s.admission.internal⟩
    · rw [State.giveUp_refresh_loses many, State.refreshOver_changeNode running stale,
        State.refreshClaim_eq (.inl (by nofun))] at hexec
      obtain ⟨⟨ports, admission⟩, ends⟩ := State.ends_of_refreshLeft (s := s) (p := f.position) (claim := guard) sent hq
        (fun h => by simp [guard, h]) cls none none { old with state := .lost, failures := old.failures + 1 }
        (s.ports.map fun h =>
          (h.post (.nodeState f.position .lost old.held (old.failures + 1) .refreshFailed)).raise .ringChange)
        (enqueue s.admission.internal (.lost f.position))
      exact ⟨_, _, hexec, rfl, ends, fun q => (congrArg (Table.get · q) ports).trans (Table.get_map _ _ _),
        (congrArg Admission.internal admission).trans (enqueue_of_new new)⟩

end Sys2Proof.Machine
end

section
/-! SUPPORT. The hub cycle that is no switch cycle (R68, R89, R106, R112). -/

namespace Sys2Proof.Machine

set_option Elab.async false

/-- A ring out of OFF, with quiet cycles left in QUIETING, sends its cycle (R89, R106; log 21). -/
theorem Ring.sends_of {g : Ring} (off : g.state ≠ .off) (quiet : g.state = .quieting → 0 < g.quietLeft) :
    g.sends = true := by
  unfold sends
  split
  · next h => exact absurd h off
  · next h => exact decide_eq_true (quiet h)
  all_goals rfl

/-- Settles O42: the cycle is composed of the state as it stands, and its octets read back. -/
theorem hubCycleIsSent : Obligations.HubCycleIsSent := by
  intro s off quiet undue
  have cycle : exec .hubCycle s = .next s.sendCycle := congrArg _ (if_pos (Ring.sends_of off quiet))
  have sent := s.sendCycle_eq
  rw [State.composing_of_not_due undue] at sent
  refine ⟨s.sendCycle, (s.controlFor s.ring.nextCount).awaits, cycle, ?_⟩
  rw [sent]
  refine ⟨?_, epochOf_cycleOctets _ _ _ _ _ _ _ _, turnoverOf_cycleOctets _ _ _ _ _ _ _ _,
    countOf_cycleOctets _ _ _ _ _ _ _ _, State.controlFor_composes (s.controlOf_hubOctets _)⟩
  simp only [beq_iff_eq]
  rfl

end Sys2Proof.Machine
end

section
/-! SUPPORT. What a Ring Stop and a Ring Restart end (R83, R107, R109, R117), and the item whose effect is the entry
into a ring state (R39, R105; log 20). -/

namespace Sys2Proof.Machine

set_option Elab.async false

namespace State

/-! ### The work that ends -/

/-- Whatever drop went before, with the exchange dropped none is left (R117). -/
theorem dropExchange_withoutExchange (s : State) (which : User → Bool) :
    (s.dropExchange which).withoutExchange = s.withoutExchange := by
  cases h : s.control.drops which with
  | true => rw [dropExchange_of_drops h]; exact withoutExchange_of_none rfl
  | false => rw [dropExchange_of_keeps h]

/-- Every user's exchange dropped (R107, R117). -/
theorem dropExchange_every (s : State) : (s.dropExchange fun _ => true) = s.withoutExchange := by
  cases hx : s.control.exchange with
  | none => rw [dropExchange_of_keeps (by simp [Control.drops, hx]), withoutExchange_of_none hx]
  | some x => exact dropExchange_of_drops (Control.drops_iff.mpr ⟨x, hx, rfl⟩)

/-- An abandon, once every exchange is dropped (R83, R117). -/
theorem abandon_withoutExchange (s : State) : s.abandon.withoutExchange =
    if s.turnover.inFlight then s.withoutExchange.turnoverAbandoned else s.withoutExchange := by
  cases h : s.turnover.inFlight with
  | false => rw [abandon_of_not_inFlight h]; rfl
  | true =>
    have abandoned : s.abandon = (s.dropExchange (· == .distribution)).turnoverAbandoned := by
      rw [abandon, if_pos h]; rfl
    rw [abandoned, if_pos rfl, ← s.dropExchange_withoutExchange (· == .distribution)]
    rfl

/-- A Ring Stop or a Ring Restart leaves no exchange, no refresh and no procedure, and abandons the turnover of a
running ring (R83, R107, R109, R117). -/
theorem endRingWork_eq (s : State) : s.endRingWork =
    if s.running && s.turnover.inFlight then s.withoutExchange.roundEnded.turnoverAbandoned
    else s.withoutExchange.roundEnded := by
  have ends : s.endRingWork = (s.leaveRunning false).withoutExchange.roundEnded :=
    congrArg roundEnded (dropExchange_every _)
  rw [ends]
  cases hrun : s.running with
  | false => rw [leaveRunning_of_not_running false hrun]; rfl
  | true =>
    have left : s.leaveRunning false =
        (s.dropExchange fun u => u == .verification || u == .refresh).roundEnded.abandon := by
      rw [leaveRunning, if_pos hrun]; rfl
    have dropped : (s.dropExchange fun u => u == .verification || u == .refresh).roundEnded.withoutExchange =
        s.withoutExchange.roundEnded :=
      congrArg roundEnded (s.dropExchange_withoutExchange fun u => u == .verification || u == .refresh)
    rw [left, abandon_withoutExchange, dropped]
    show roundEnded (if s.turnover.inFlight then _ else _) = _
    cases s.turnover.inFlight <;> rfl

/-- The taking of a frame is not touched by what ends (R39, R107). -/
theorem endRingWork_beginItem (s : State) (p : Port) (f : List Byte) :
    (s.beginItem p f).endRingWork = s.endRingWork.beginItem p f := by
  rw [endRingWork_eq, endRingWork_eq]
  show (if s.running && s.turnover.inFlight then _ else _) = _
  cases s.running && s.turnover.inFlight <;> rfl

/-- What ends, field by field (R83, R107, R109, R117). -/
theorem endRingWork_frame {s : State} (hx : s.control.exchange = none → s.control.attempt = none) :
    s.endRingWork = { s with
        streams := s.endRingWork.streams, turnover := s.endRingWork.turnover
        plans := { s.plans with outgoing := s.endRingWork.plans.outgoing }
        admission :=
          { s.admission with
            batchEmpty := s.endRingWork.admission.batchEmpty
            batchTickets := s.endRingWork.admission.batchTickets }
        ring := { s.ring with sent := s.sentWithoutAttempt s.ring.sent }
        control := { s.control with exchange := none, attempt := none, refresh := none }
        nodes := { s.nodes with procedure := .idle } } ∧
      (s.ring.state = .running ∧ s.turnover.inFlight = true → s.abandonedTo s.endRingWork) ∧
      (s.ring.state ≠ .running ∨ s.turnover.inFlight = false → s.endRingWork.streams = s.streams ∧
        s.endRingWork.plans = s.plans ∧ s.endRingWork.turnover = s.turnover ∧
        s.endRingWork.admission = s.admission) := by
  have attempt : (if s.control.exchange = none then s.control.attempt else none) = none := by
    split
    · next h => exact hx h
    · rfl
  have frame : s.withoutExchange.roundEnded = { s with
      ring := { s.ring with sent := s.sentWithoutAttempt s.ring.sent }
      control := { s.control with exchange := none, attempt := none, refresh := none }
      nodes := { s.nodes with procedure := .idle } } := by
    unfold withoutExchange roundEnded
    rw [attempt]
  rw [endRingWork_eq, frame]
  by_cases h : s.ring.state = .running ∧ s.turnover.inFlight = true
  · rw [if_pos (by simp [running, h.1, h.2])]
    refine ⟨rfl, fun _ => turnoverAbandoned_abandonedTo _, fun kept => ?_⟩
    exact kept.elim (absurd h.1) fun idle => absurd (h.2.symm.trans idle) nofun
  · rw [if_neg (by simpa [running] using h)]
    exact ⟨rfl, fun flight => absurd flight h, fun _ => ⟨rfl, rfl, rfl, rfl⟩⟩

/-! ### The item that has the ring enter a state -/

/-- The entry into a state that raises nothing (R105). -/
theorem enterRing_unraised (s : State) {st : RingState} (down : st.down = false) (run : (st == .running) = false)
    (reason : RingReason) : s.enterRing st reason = { s with
      ring := s.ring.enter st
      ports := s.ports.map fun h => h.post (.ringState st (s.ring.enter st).breakPos reason) } := by
  unfold enterRing HostPort.ringChanged HostPort.raiseIf
  simp only [down, run, Bool.false_and, Bool.or_false, Bool.false_eq_true, if_false]

/-- A request that has the ring enter a state which raises nothing: every port is told, the sender ahead of its
answer (R39, R48, R105; log 20). -/
theorem runItem_entersRing {s u : State} {p : Port} {tag : Byte} {code : Nat} {act : Effect} {st : RingState}
    {reason : RingReason} (down : st.down = false) (run : (st == .running) = false)
    (hact : act (s.beginItem p (frameOf tag code [])) =
      answered ((u.beginItem p (frameOf tag code [])).enterRing st reason) [])
    (hu : u.admission.processing = none) (ports : u.ports = s.ports) :
    let f := frameOf tag code []
    let n : Notice := .ringState st (u.ring.enter st).breakPos reason
    s.runItem p f act = { u with
        ports := (s.runItem p f act).ports
        admission := { u.admission with lastServed := p }
        ring := u.ring.enter st } ∧
      (∀ q, q ≠ p → (s.runItem p f act).port q = (s.port q).post n) ∧
      (s.runItem p f act).port p = (s.port p).toldAndAnswered n tag (octet code) := by
  intro f n
  have same (q : Port) : u.port q = s.port q := congrArg (Table.get · q) ports
  have ran : s.runItem p f act = ((u.beginItem p f).enterRing st reason).finishItem p f (.done []) := by
    unfold runItem
    rw [hact]
    rfl
  have told (q : Port) : ((u.beginItem p f).enterRing st reason).port q = ((u.beginItem p f).port q).post n := by
    rw [enterRing_unraised _ down run]
    exact Table.get_map _ _ _
  rw [ran]
  refine ⟨?_, fun q hq => ?_, ?_⟩
  · rw [enterRing_unraised _ down run]
    unfold finishItem
    rw [← hu]
    rfl
  · rw [finishItem_port_ne _ _ _ hq.symm, told, beginItem_port_ne _ _ hq.symm, same]
  · rw [finishItem_port_self, told, beginItem_port_self, same]
    rfl

end State

/-! ### Ring Stop and Ring Restart -/

section acts
variable {s : State} {p : Port} {f : List Byte}

/-- A Ring Stop in QUIETING sets the destination (R107). -/
theorem actRingStop_quieting (auth : (s.port p).authority = true) (h : s.ring.state = .quieting) :
    actRingStop p f s = answered { s with ring := { s.ring with quietDest := some .off } } [] := by
  simp only [actRingStop, ringLevel_acts auth, h]

/-- A Ring Stop in any other state but OFF ends the ring's work (R107). -/
theorem actRingStop_ends (auth : (s.port p).authority = true) (unquiet : s.ring.state ≠ .quieting)
    (on : s.ring.state ≠ .off) : actRingStop p f s = answered (s.endRingWork.beginQuiet .off .stop) [] := by
  rw [actRingStop, ringLevel_acts auth]
  cases h : s.ring.state with
  | off => exact absurd h on
  | quieting => exact absurd h unquiet
  | numbering | identifying | running | broken | halted => rfl

/-- A Ring Restart in RUNNING, BROKEN or HALTED ends the ring's work and begins a numbering (R109). -/
theorem actRingRestart_begins (auth : (s.port p).authority = true)
    (h : s.ring.state = .running ∨ s.ring.state = .broken ∨ s.ring.state = .halted) :
    actRingRestart p f s = answered (({ s.endRingWork with
      nodes := s.endRingWork.nodes.restart
      ring :=
        { s.endRingWork.ring with misses := 0, heal := 0, healOdd := false, shape := 0 } } : State).enterRing
          .numbering .restart) [] := by
  rw [actRingRestart, ringLevel_acts auth]
  obtain h | h | h := h <;> rw [h]

end acts

namespace State

/-- What the end of the ring's work makes of views, plans, controller and batch, read after the item (R83). -/
theorem abandonedOrSame_of_ended {s t : State} {p : Port} (hx : s.control.exchange = none → s.control.attempt = none)
    (streams : t.streams = s.endRingWork.streams) (plans : t.plans = s.endRingWork.plans)
    (turnover : t.turnover = s.endRingWork.turnover)
    (admission : t.admission = { s.endRingWork.admission with lastServed := p }) : s.abandonedOrSame t p := by
  obtain ⟨frame, abandoned, kept⟩ := endRingWork_frame hx
  have inForce : s.endRingWork.plans = { s.plans with outgoing := s.endRingWork.plans.outgoing } := by rw [frame]
  refine ⟨by rw [plans, inForce], by rw [plans, inForce], fun h => ?_, fun h => ?_⟩
  · unfold abandonedTo entry
    rw [streams, plans, turnover, admission]
    exact abandoned h
  · rw [streams, plans, turnover, admission]
    obtain ⟨streams', plans', turnover', admission'⟩ := kept h
    exact ⟨streams', plans', turnover', by rw [admission']⟩

/-- An item that ends the ring's work, sets the Ring Engine and the Node Table, and has the ring enter a state (R83,
R105, R107, R109). -/
theorem runItem_endsWork {s : State} {p : Port} {tag : Byte} {code : Nat} {act : Effect} {st : RingState}
    {reason : RingReason} (down : st.down = false) (run : (st == .running) = false)
    (hp : s.pick = some (p, frameOf tag code [])) (hx : s.control.exchange = none → s.control.attempt = none)
    (ring : Ring → Ring) (nodes : Nodes → Nodes)
    (hact : act (s.beginItem p (frameOf tag code [])) =
      let w := (s.beginItem p (frameOf tag code [])).endRingWork
      answered (({ w with ring := ring w.ring, nodes := nodes w.nodes } : State).enterRing st reason) []) :
    let t := s.runItem p (frameOf tag code []) act
    let g := (ring { s.ring with sent := s.sentWithoutAttempt s.ring.sent }).enter st
    let n : Notice := .ringState st g.breakPos reason
    t = { s with
          ports := t.ports, streams := t.streams, plans := t.plans, turnover := t.turnover
          admission :=
            { s.admission with
              lastServed := p, batchEmpty := t.admission.batchEmpty, batchTickets := t.admission.batchTickets }
          ring := g
          control := { s.control with exchange := none, attempt := none, refresh := none }
          nodes := nodes { s.nodes with procedure := .idle } } ∧
      s.abandonedOrSame t p ∧ (∀ q, q ≠ p → t.port q = (s.port q).post n) ∧
      t.port p = (s.port p).toldAndAnswered n tag (octet code) := by
  intro t g n
  obtain ⟨frame, -⟩ := endRingWork_frame hx
  rw [endRingWork_beginItem] at hact
  obtain ⟨ran, others, sender⟩ := runItem_entersRing (s := s)
    (u := { s.endRingWork with ring := ring s.endRingWork.ring, nodes := nodes s.endRingWork.nodes }) down run hact
    (by rw [frame]; exact processing_of_pick hp) (by rw [frame])
  have engine : (ring s.endRingWork.ring).enter st = g := by rw [frame]
  dsimp only at ran others sender
  rw [engine] at ran others sender
  have same : s.abandonedOrSame t p := by
    refine abandonedOrSame_of_ended hx ?_ ?_ ?_ ?_ <;> exact (congrArg _ ran).trans rfl
  refine ⟨?_, same, others, sender⟩
  rw [show t = _ from ran, frame]

end State

/-- Settles O33: the work ended, and the ring entering QUIETING at the item of the authority port. -/
theorem ringStopEndsWork : Obligations.RingStopEndsWork := by
  intro s p tag f hf hp ha auth hx
  subst hf
  have authority : ((s.beginItem p (frameOf tag 0x32 [])).port p).authority = true := by
    rw [State.beginItem_authority, auth]
  refine ⟨fun quieting => congrArg _ (State.takeRequest_answers hp rfl rfl (.inr ha) (by rfl)
    (actRingStop_quieting authority quieting)), fun unquiet on => ?_⟩
  have taken : exec .ringStop s = .next (s.runItem p _ (actRingStop p _)) :=
    congrArg _ (State.takeRequest_wellFormed _ hp ha rfl rfl)
  exact ⟨_, taken, State.runItem_endsWork (st := .quieting) (reason := .stop) rfl rfl hp hx
    (fun g => { g with quietDest := some .off, quietLeft := 4 }) id (actRingStop_ends authority unquiet on)⟩

/-- Settles O34: the work ended, the table retained, and the ring entering NUMBERING at the item of the authority
port. -/
theorem ringRestartNumbersAgain : Obligations.RingRestartNumbersAgain := by
  intro s p tag f hf hp ha auth hx hstate
  subst hf
  have authority : ((s.beginItem p (frameOf tag 0x33 [])).port p).authority = true := by
    rw [State.beginItem_authority, auth]
  have taken : exec .ringRestart s = .next (s.runItem p _ (actRingRestart p _)) :=
    congrArg _ (State.takeRequest_wellFormed _ hp ha rfl rfl)
  exact ⟨_, taken, State.runItem_endsWork (st := .numbering) (reason := .restart) rfl rfl hp hx
    (fun g => { g with misses := 0, heal := 0, healOdd := false, shape := 0 }) Nodes.restart
    (actRingRestart_begins authority hstate)⟩

end Sys2Proof.Machine
end

section
/-! SUPPORT. How a NUMBER attempt concludes (R131 to R133), and the end of a return whatever it delivers (R34,
R152). -/

namespace Sys2Proof.Machine

set_option Elab.async false

theorem Table.map_same {α : Type} {n : Nat} (t : Table α n) : (t.map fun a => a) = t := by
  apply Table.ext_get; simp

namespace State

/-! ### The end of a return that may deliver -/

/-- With nothing drained meanwhile, a return delivers to the ports alone (R152). -/
theorem extract_undrained (s : State) (r : CycleRecord) (cls : ReturnClass) :
    s.extract r cls [] = { s with ports := (s.extract r cls []).ports } := by
  unfold extract
  split
  · rfl
  · rw [handle_nil]

/-- With no port listed for the cycle's page, a return delivers nothing (R152). -/
theorem concluded_ports_of_nothingListed {s u : State} {r : CycleRecord}
    (hplan : u.planFor r.epoch = s.planFor r.epoch) (hq : s.nothingListed r) (cls : ReturnClass) :
    (u.concluded r cls).ports = u.ports := by
  rw [concluded_of_nothingListed hplan hq]
  rfl

/-! ### What a NUMBER attempt leaves -/

/-- What the conclusion of a NUMBER attempt leaves before the end of the return, every port told by `f` (R132,
R133). -/
def numberingLeft (s : State) (f : HostPort → HostPort) (g : Ring) (nodes : Nodes) (claim : Bool) : State :=
  { s with
    ports := s.ports.map f, ring := g, nodes := nodes
    control := { s.control with exchange := none, attempt := none }
    turnover := { s.turnover with claim := s.turnover.claim || claim } }

/-- The end of the return adds what it delivers and the retired plan (R34, R152). -/
theorem ends_of_numberingLeft {s : State} {r : CycleRecord} {rest : List CycleRecord} {f : HostPort → HostPort}
    {g : Ring} {nodes : Nodes} {claim : Bool} (idle : s.turnover.inFlight = false) (sent : g.sent = rest)
    (cls : ReturnClass) :
    let t := (s.numberingLeft f g nodes claim).concluded r cls
    (t = { s with
          ports := t.ports, ring := g, nodes := nodes
          turnover := { s.turnover with claim := s.turnover.claim || claim }
          control := { s.control with exchange := none, attempt := none }
          plans := { s.plans with retired := t.plans.retired }
          mover := { s.mover with retiredDelivery := t.mover.retiredDelivery } } ∧
      s.retiresAfter t rest) ∧
      (s.nothingListed r → ∀ q, t.port q = f (s.port q)) := by
  intro t
  have delivered := (s.numberingLeft f g nodes claim).extract_undrained r cls
  have heard (hq : s.nothingListed r) : t.ports = s.ports.map f :=
    concluded_ports_of_nothingListed (s := s) (u := s.numberingLeft f g nodes claim) rfl hq cls
  have ends : t = ((s.numberingLeft f g nodes claim).extract r cls []).discardRetired :=
    advanceWork_of_not_inFlight (by rw [discardRetired_turnover, delivered]; exact idle)
  refine ⟨⟨?_, ?_⟩, fun hq q => (congrArg (Table.get · q) (heard hq)).trans (Table.get_map _ _ _)⟩
  · rw [ends, delivered]
    rfl
  · rw [ends]
    exact retiresAfter_discarded (by rw [delivered]; rfl) (by rw [delivered]; rfl)
      (by rw [delivered]; exact congrArg _ sent)

section numbering
variable {s : State} {g : Ring}

/-- A failed attempt with another left (R131, R133). -/
theorem numberingFailed_again {k : Nat} (hk : s.nodes.procedure = .numbering k) (h : k < 2) :
    ({ s with ring := g } : State).closeExchange.numberingFailed =
      s.numberingLeft (fun h => h) g { s.nodes with procedure := .numbering (k + 1) } false := by
  have left : ¬ Config.numberAttempts ≤ k + 1 := by unfold Config.numberAttempts; omega
  simp only [numberingFailed, closeExchange, hk, if_neg left, numberingLeft, Bool.or_false, Table.map_same]

/-- The last failed attempt halts the ring (R131, R133). -/
theorem numberingFailed_last {k : Nat} (hk : s.nodes.procedure = .numbering k) (h : 2 ≤ k)
    (brk : g.breakPos = s.ring.breakPos) :
    ({ s with ring := g } : State).closeExchange.numberingFailed =
      s.numberingLeft (fun h => (h.post (.ringState .halted s.ring.breakPos .noReturn)).raise .ringDown)
        { g with state := .halted } { s.nodes with procedure := .idle, retained := none } false := by
  have spent : Config.numberAttempts ≤ k + 1 := by unfold Config.numberAttempts; omega
  rw [← brk]
  simp only [numberingFailed, closeExchange, hk, if_pos spent, numberingLeft, Bool.or_false, enterRing_halted]

/-- The Node Table after a numbering that counted `n` nodes, with a procedure under way (R132). -/
def nodesCounted (s : State) (n : Fin 16) (procedure : Procedure) : Nodes :=
  { entries := Table.tabulate fun p => NodeEntry.blank (if p.val < n.val then .unidentified else .absent)
    count := n, retained := s.nodes.retained, procedure := procedure }

/-- The counts of a NUMBER that returned, before the ring goes on (R132). -/
theorem numberingReturned_eq (n : Fin 16) (d : Nat) :
    ({ s with ring := g } : State).closeExchange.numberingReturned (n.val + 1) d =
      let v : State := { ({ s with ring := g } : State).closeExchange with
        nodes := s.nodes.numbered n, ring := { g with latency := some d } }
      if n.val = 0 then if s.nodes.retained.isSome then v else v.enterRing .running .numbered
      else v.enterRing .identifying .numbered := by
  simp only [numberingReturned, Nat.add_sub_cancel, n.isLt, dif_pos, Fin.eta]
  rfl

/-- A NUMBER that counted nodes has them identified (R132). -/
theorem numberingReturned_identifies {n : Fin 16} (hn : n ≠ 0) (d : Nat) :
    ({ s with ring := g } : State).closeExchange.numberingReturned (n.val + 1) d =
      s.numberingLeft (fun h => h.post (.ringState .identifying g.breakPos .numbered))
        { g with state := .identifying, latency := some d } (s.nodesCounted n (.identifying 0)) false := by
  have counted : n.val ≠ 0 := fun h => hn (Fin.ext h)
  rw [numberingReturned_eq]
  simp only [if_neg counted, enterRing_unraised _ (st := .identifying) rfl rfl, Nodes.numbered, numberingLeft,
    nodesCounted, Bool.or_false]
  rfl

/-- A NUMBER that counted no node has the ring run (R132). -/
theorem numberingReturned_runs (hr : s.nodes.retained = none) (d : Nat) :
    ({ s with ring := g } : State).closeExchange.numberingReturned ((0 : Fin 16).val + 1) d =
      s.numberingLeft (fun h => (h.post (.ringState .running 0 .numbered)).raise .ringChange)
        { g with state := .running, latency := some d, misses := 0, shape := 0, breakPos := 0 }
        (s.nodesCounted 0 .idle) (decide (s.turnover.state = .waiting)) := by
  refine (numberingReturned_eq 0 d).trans ?_
  simp only [enterRing_running, Nodes.numbered, numberingLeft, nodesCounted, hr]
  rfl

/-- A NUMBER that counted no node after a restart leaves the ring to the reconciliation (R132, R139). -/
theorem numberingReturned_reconciles (hr : s.nodes.retained ≠ none) (d : Nat) :
    ({ s with ring := g } : State).closeExchange.numberingReturned ((0 : Fin 16).val + 1) d =
      s.numberingLeft (fun h => h) { g with latency := some d } (s.nodesCounted 0 .reconciling) false := by
  refine (numberingReturned_eq 0 d).trans ?_
  have kept := Option.isSome_iff_ne_none.mpr hr
  simp only [Nodes.numbered, numberingLeft, nodesCounted, kept, Bool.or_false, Table.map_same]
  rfl

/-- A NUMBER that counted too many nodes halts the ring (R132). -/
theorem numberingReturned_tooMany {c : Nat} (h : 17 ≤ c) (d : Nat) :
    ({ s with ring := g } : State).closeExchange.numberingReturned c d =
      s.numberingLeft (fun h => (h.post (.ringState .halted g.breakPos .tooMany)).raise .ringDown)
        { g with state := .halted } { s.nodes with procedure := .idle, retained := none } false := by
  rw [numberingReturned, dif_neg (by omega)]
  simp only [closeExchange, numberingLeft, Bool.or_false, enterRing_halted]

end numbering

/-! ### The command that concludes a NUMBER attempt -/

section heard
variable {s : State} {r : CycleRecord} {rest : List CycleRecord} {x : Exchange} {a : Attempt} {e : Epoch}

theorem numbers_of_attempts (ha : s.attempts r rest x a) (hm : x.message = .number e) : s.numbers r = true := by
  obtain ⟨-, awaits, hx, ha, count⟩ := ha
  simp [numbers, hx, ha, awaits, count, hm, Message.position]

/-- A return in the window of a cycle that carries a NUMBER attempt is evaluated, and L stays (R96, R133; log 26). -/
theorem exec_numberReturned {octets : List Byte} {cell : Nat} (ha : s.attempts r rest x a)
    (hm : x.message = .number e) (hears : s.ring.hears r cell) (hlate : s.ring.late r octets = false) :
    exec (.returnEvaluation cell ⟨octets, []⟩) s = .next
      (s.evaluate r (classify r octets) (cell - r.start) []) := by
  rw [exec_returned ha.1 hears hlate, follow_of_numbers (numbers_of_attempts ha hm)]

/-- A NUMBER attempt that failed is one of its own (R115, R118, R131). -/
theorem exec_failsNumber {c : Instr} {g : Ring} (ha : s.attempts r rest x a) (hm : x.message = .number e)
    (hf : s.failsAttempt r rest x a (s.ring.hears r) c g) :
    ∃ cls, exec c s = .next ((({ s with ring := g } : State).closeExchange.numberingFailed).concluded r cls) := by
  have failed (v : State) : v.attemptFailed x = v.closeExchange.numberingFailed := by
    simp only [attemptFailed, hm, Message.position]
  simp only [← failed]
  obtain missed | ⟨octets, ⟨cell, hears, rfl⟩, damages, hshape, rfl⟩ |
    ⟨octets, ⟨⟨cell, hears, rfl⟩, good, hshape, hheal, rfl⟩, unanswered⟩ := hf
  · obtain ⟨origin, d, hexec⟩ := exec_returnsMissed ha.1 missed
    exact ⟨_, by rw [hexec, channel_of_failed ha g d rfl]⟩
  · refine ⟨.damaged octets, (exec_numberReturned ha hm hears damages.not_late).trans ?_⟩
    rw [damages.classify, evaluate_eq, engine_damaged ha.1 damages hshape, channel_of_failed ha _ _ rfl]
    rfl
  · refine ⟨.good octets, (exec_numberReturned ha hm hears good.not_late).trans ?_⟩
    rw [good.classify, evaluate_eq, engine_good ha.1 good hshape hheal, channel_of_failed ha]
    · rfl
    · exact hearField_of_not_answered unanswered

/-- A NUMBER heard back counts (R115, R118, R132). -/
theorem exec_countsNumber {octets : List Byte} {cell : Nat} (ha : s.attempts r rest x a) (hm : x.message = .number e)
    (hstate : s.ring.state = .numbering) (hears : s.ring.hears r cell) (good : goodReturnOf r octets)
    (kind : octetAt octets 7 = 0x01) (sequence : octetAt octets 9 = a.sequence) (counter : numAt octets 10 ≠ 0) :
    exec (.returnEvaluation cell ⟨octets, []⟩) s = .next
      ((({ s with ring := { s.ring with sent := rest } } : State).closeExchange.numberingReturned (numAt octets 10)
        (cell - r.start)).concluded r (.good octets)) := by
  have answers : hear x.message a.sequence (.good octets) = .number (numAt octets 10) := by
    simp only [hm, hear, hearField, numAt] at counter ⊢
    simp (disch := decide) only [octetAt_controlOf, Nat.reduceAdd]
    rw [if_neg (not_not.mpr sequence), if_pos ⟨kind, counter⟩]
  have engine := engine_good ha.1 good (by rw [hstate]; nofun) (by rw [hstate]; nofun)
  obtain ⟨-, awaits, hx, attempt, count⟩ := id ha
  rw [exec_numberReturned ha hm hears good.not_late, good.classify, evaluate_eq, engine]
  simp only [Ring.afterGood, hstate, channel, hx, attempt, awaits, count, answers, beq_self_eq_true, Bool.and_self,
    if_true]
  rfl

/-- A failed attempt in NUMBERING leaves the break position (R98). -/
theorem failsAttempt_breakPos {heard : Nat → Prop} {c : Instr} {g : Ring} (hstate : s.ring.state = .numbering)
    (h : s.failsAttempt r rest x a heard c g) : g.breakPos = s.ring.breakPos := by
  obtain ⟨-, origin, -, rfl⟩ | ⟨octets, -, -, -, rfl⟩ | ⟨octets, ⟨-, -, -, -, rfl⟩, -⟩ := h
  · simp [Ring.afterMiss, hstate]
  · simp [Ring.afterDamaged, hstate]
  · simp [Ring.afterGood, hstate]

end heard

end State

/-- Settles O51: what the attempt's conclusion leaves, and the end of the return from there. -/
theorem numberingCountsNodes : Obligations.NumberingCountsNodes := by
  intro s r rest x a e k hstate hproc ha hm idle left told halts
  refine ⟨?_, fun c g fails => ?_⟩
  · intro octets cell hears good kind sequence ring nodes
    have counts (h : numAt octets 10 ≠ 0) := State.exec_countsNumber ha hm hstate hears good kind sequence h
    refine ⟨fun n hn => ⟨_, counts (by omega), fun some' => ?_, fun zero hr => ?_, fun zero hr => ?_⟩,
      fun many => ⟨_, counts (by omega), ?_⟩⟩
    · rw [hn, State.numberingReturned_identifies some']
      exact State.ends_of_numberingLeft idle rfl _
    · rw [hn, zero, State.numberingReturned_runs hr]
      exact State.ends_of_numberingLeft idle rfl _
    · rw [hn, zero, State.numberingReturned_reconciles hr]
      exact State.ends_of_numberingLeft idle rfl _
    · rw [State.numberingReturned_tooMany many]
      exact State.ends_of_numberingLeft idle rfl _
  · obtain ⟨cls, hexec⟩ := State.exec_failsNumber ha hm fails
    obtain ⟨sent, -⟩ := State.failsAttempt_ring fails
    refine ⟨_, hexec, fun again => ?_, fun last => ?_⟩
    · rw [State.numberingFailed_again hproc again]
      exact State.ends_of_numberingLeft idle sent cls
    · rw [State.numberingFailed_last hproc last (State.failsAttempt_breakPos hstate fails)]
      exact State.ends_of_numberingLeft (g := { g with state := .halted }) idle sent cls

end Sys2Proof.Machine
end

section
/-! SUPPORT. A return keeps the retired plan, its delivery table and the epochs of the cycles still awaited, until its
end (R34, R151; log 25). -/

namespace Sys2Proof.Machine

set_option Elab.async false

/-- The retired plan, its delivery table and the epochs of the awaited cycles are as they were. -/
structure State.sameAwaited (s t : State) : Prop where
  retired  : t.plans.retired = s.plans.retired := by rfl
  delivery : t.mover.retiredDelivery = s.mover.retiredDelivery := by rfl
  epochs   : t.ring.sent.map (·.epoch) = s.ring.sent.map (·.epoch) := by rfl

namespace State

theorem sameAwaited.trans {s t u : State} (h : s.sameAwaited t) (h' : t.sameAwaited u) : s.sameAwaited u :=
  ⟨h'.retired.trans h.retired, h'.delivery.trans h.delivery, h'.epochs.trans h.epochs⟩

/-- A dropped attempt's cycle keeps its epoch (R117). -/
theorem dropExchange_sameAwaited (s : State) (which : User → Bool) : s.sameAwaited (s.dropExchange which) where
  epochs := by
    have disowned (r : CycleRecord) : (r.disown s.control.attempt).epoch = r.epoch := by
      unfold CycleRecord.disown
      repeat' split
      all_goals rfl
    unfold dropExchange
    dsimp only
    split
    · simp [Function.comp_def, disowned]
    · rfl

theorem abandon_sameAwaited (s : State) : s.sameAwaited s.abandon := by
  unfold abandon
  split
  · exact (dropExchange_sameAwaited s _).trans {}
  · exact {}

theorem leaveRunning_sameAwaited (s : State) (failing : Bool) : s.sameAwaited (s.leaveRunning failing) := by
  have fails : s.sameAwaited (if failing then s.failVerification else s) := by
    split
    · exact changeNodes_induct (P := s.sameAwaited) (fun _ _ h => h.trans {}) _ s {}
    · exact {}
  unfold leaveRunning
  split
  · exact (fails.trans (dropExchange_sameAwaited _ _)).trans (.trans {} (abandon_sameAwaited _))
  · exact {}

theorem enterRing_sameAwaited (s : State) (st : RingState) (reason : RingReason) :
    s.sameAwaited (s.enterRing st reason) := by cases st <;> exact {}

theorem halt_sameAwaited (s : State) (reason : RingReason) : s.sameAwaited (s.halt reason) :=
  (s.leaveRunning_sameAwaited true).trans (enterRing_sameAwaited _ _ _)

/-! ### The Ring Engine at a return (R98, R99, R104) -/

theorem missInRunning_sameAwaited (s : State) (origin : Option (Fin 17)) : s.sameAwaited (s.missInRunning origin) := by
  unfold missInRunning
  dsimp only
  split
  · exact .trans {} ((leaveRunning_sameAwaited _ true).trans (enterRing_sameAwaited _ _ _))
  · exact {}

theorem returnInRunning_sameAwaited (s : State) (hop : Option Nat) : s.sameAwaited (s.returnInRunning hop) := by
  unfold returnInRunning
  dsimp only
  split
  · exact {}
  · split
    · exact {}
    · split
      · exact .trans {} (halt_sameAwaited _ _)
      · exact {}

theorem goodInBroken_sameAwaited (s : State) (hop : Nat) : s.sameAwaited (s.goodInBroken hop) := by
  unfold goodInBroken
  dsimp only
  split
  · split
    · exact .trans {} (halt_sameAwaited _ _)
    · exact {}
  · exact {}

theorem engine_sameAwaited (s : State) (r : CycleRecord) (cls : ReturnClass) : s.sameAwaited (s.engine r cls) := by
  unfold engine
  split
  · cases cls with
    | miss origin => exact missInRunning_sameAwaited _ _
    | good _ | damaged _ => exact returnInRunning_sameAwaited _ _
  · cases cls with
    | miss _ | damaged _ => exact {}
    | good _ => exact goodInBroken_sameAwaited _ _
  all_goals exact {}

/-! ### The conclusions of an exchange (R115 to R118) -/

theorem numberingFailed_sameAwaited (s : State) : s.sameAwaited s.numberingFailed := by
  unfold numberingFailed
  repeat' split
  all_goals exact {}

theorem numberingReturned_sameAwaited (s : State) (c delay : Nat) : s.sameAwaited (s.numberingReturned c delay) := by
  unfold numberingReturned
  dsimp only
  repeat' split
  all_goals exact {}

theorem identifyNext_sameAwaited (s : State) (p : Pos) : s.sameAwaited (s.identifyNext p) := by
  unfold identifyNext
  repeat' split
  all_goals exact {}

theorem giveUp_sameAwaited (s : State) (u : User) (p : Pos) : s.sameAwaited (s.giveUp u p) := by
  cases u with
  | identification => exact .trans {} (identifyNext_sameAwaited _ p)
  | refresh =>
    unfold giveUp refreshFailed
    dsimp only
    split <;> exact {}
  | numbering | verification | distribution => exact {}

theorem attemptFailed_sameAwaited (s : State) (x : Exchange) : s.sameAwaited (s.attemptFailed x) := by
  unfold attemptFailed
  split
  · exact .trans {} (numberingFailed_sameAwaited s.closeExchange)
  · split
    · exact {}
    · exact .trans {} (giveUp_sameAwaited s.closeExchange _ _)

theorem nakHeard_sameAwaited (s : State) (x : Exchange) : s.sameAwaited (s.nakHeard x) := by
  unfold nakHeard
  split
  · exact {}
  · split
    · exact .trans {} (giveUp_sameAwaited s.closeExchange _ _)
    · dsimp only
      repeat' split
      all_goals exact {}

theorem ackHeard_sameAwaited (s : State) (x : Exchange) : s.sameAwaited (s.ackHeard x) := by
  unfold ackHeard refreshAcked
  dsimp only
  repeat' split
  all_goals exact {}

theorem identityHeard_sameAwaited (s : State) (x : Exchange) (i : Identity) (held : Option Epoch) :
    s.sameAwaited (s.identityHeard x i held) := by
  unfold identityHeard
  split
  · exact .trans {} (identifyNext_sameAwaited (s.closeExchange.updateNode _ _) _)
  · unfold verified
    split
    · exact {}
    · exact .trans {} (halt_sameAwaited s.closeExchange.verifyNext _)
  · exact {}

theorem channel_sameAwaited (s : State) (r : CycleRecord) (cls : ReturnClass) (delay : Nat) :
    s.sameAwaited (s.channel r cls delay) := by
  unfold channel
  split
  · split
    · split
      · exact attemptFailed_sameAwaited _ _
      · exact .trans {} (numberingReturned_sameAwaited s.closeExchange _ _)
      · exact identityHeard_sameAwaited _ _ _ _
      · exact ackHeard_sameAwaited _ _
      · exact nakHeard_sameAwaited _ _
    · exact {}
  · exact {}

/-- A return keeps or discards the retired plan by the cycles that are then awaited (R34, R151). -/
theorem evaluate_retiresAfter {s : State} {r : CycleRecord} {rest : List CycleRecord} (hsent : s.ring.sent = r :: rest)
    (cls : ReturnClass) (d : Nat) : s.retiresAfter (s.evaluate r cls d []) rest := by
  have heard := (engine_sameAwaited (s.released r cls) r cls).trans (channel_sameAwaited _ r cls d)
  rw [evaluate_eq]
  generalize ((s.released r cls).engine r cls).channel r cls d = u at heard
  have delivered := u.extract_undrained r cls
  refine retiresAfter_ends ?_ ?_ ?_ <;> rw [delivered]
  · exact heard.retired
  · exact heard.delivery
  · refine heard.epochs.trans ?_
    show (s.ring.sent.tail).map _ = _
    rw [hsent, List.tail_cons]

end State
end Sys2Proof.Machine
end

section
/-! SUPPORT. How a broken ring heals or halts, and how shape mismatches halt a running one (R99, R104). -/

namespace Sys2Proof.Machine

set_option Elab.async false

namespace State

/-! ### What the Ring Engine's part of a return leaves -/

/-- What the Ring Engine leaves of a return that decides no attempt, every port told by `f` (R97, R105). -/
def engineLeft (s : State) (f : HostPort → HostPort) (g : Ring) (nodes : Nodes) (claim : Bool) : State :=
  { s with
    ports := s.ports.map f, ring := g, nodes := nodes
    turnover := { s.turnover with claim := s.turnover.claim || claim } }

/-- The Ring Engine alone has changed, and no port is told. -/
theorem engineLeft_ring (s : State) (g : Ring) :
    s.engineLeft (fun h => h) g s.nodes false = { s with ring := g } := by
  simp only [engineLeft, Table.map_same, Bool.or_false]

section ends
variable {s : State} {r : CycleRecord} {rest : List CycleRecord} {cls : ReturnClass}

/-- A return that decides no attempt ends with the work list's progress and the retired plan (R34, R78). -/
theorem evaluate_of_engineLeft {f : HostPort → HostPort} {g : Ring} {nodes : Nodes} {claim : Bool}
    (hn : s.decidesNothing r) (hq : s.nothingListed r)
    (he : (s.released r cls).engine r cls = s.engineLeft f g nodes claim)
    (waits : s.turnover.state = .distributing → claim = false) (d : Nat) :
    let t := s.evaluate r cls d []
    (t = { s with
          ports := t.ports, ring := g, nodes := nodes, turnover := t.turnover
          plans := { s.plans with retired := t.plans.retired }
          mover := { s.mover with retiredDelivery := t.mover.retiredDelivery } } ∧
      s.goesOn t s.turnover.work claim) ∧ ∀ q, t.port q = f (s.port q) := by
  intro t
  have ends : t = (s.engineLeft f g nodes claim).discardRetired.advanceWork := by
    have undecided := channel_of_decidesNothing (s := s.engineLeft f g nodes claim) hn cls d
    rw [← concluded_of_nothingListed (s := s) (u := s.engineLeft f g nodes claim) rfl hq cls, ← undecided, ← he]
    rfl
  rw [ends]
  refine ⟨⟨rfl, goesOn_ends (fun h => ?_) (fun _ => rfl)⟩, fun q => Table.get_map _ _ _⟩
  rw [engineLeft, waits h, Bool.or_false]

/-- A return that halts the ring out of RUNNING (R83, R102, R105, R117, R125, R142). -/
theorem evaluate_of_halt {g : Ring} {reason : RingReason} (hsent : s.ring.sent = r :: rest) (hq : s.nothingListed r)
    (he : (s.released r cls).engine r cls = ({ s with ring := g } : State).halt reason) (hrun : g.state = .running)
    (hl : s.nodes.procedure.left.Nodup) (hx : s.exchangeOfRunning) (d : Nat) :
    let t := s.evaluate r cls d []
    s.leavesRunning t rest s.nodes.procedure.left
        { g with state := .halted, sent := s.sentWithoutAttempt g.sent } (.ringState .halted g.breakPos reason) ∧
      ∀ q, (t.port q).gaps = (s.port q).gaps := by
  intro t
  have running : ({ s with ring := g } : State).running = true := by simp [State.running, hrun]
  obtain ⟨frame, abandoned, kept, idle, nodes, ports⟩ :=
    halt_frame (s := { s with ring := g }) running hl hx reason
  have ends : t = (({ s with ring := g } : State).halt reason).discardRetired := by
    have quiet : (({ s with ring := g } : State).halt reason).control.exchange = none := by rw [frame]
    rw [← advanceWork_of_not_inFlight (s := (({ s with ring := g } : State).halt reason).discardRetired) idle,
      ← concluded_of_nothingListed (s := s) (by rw [frame]; rfl) hq cls, ← channel_of_no_exchange quiet r cls d, ← he]
    rfl
  have retires : s.retiresAfter t rest := evaluate_retiresAfter hsent cls d
  rw [ends] at retires ⊢
  generalize ({ s with ring := g } : State).halt reason = v at *
  refine ⟨⟨?_, abandoned, kept, retires, nodes, fun q => ?_⟩, fun q => ?_⟩
  · unfold discardRetired
    rw [frame]
    rfl
  · intro told
    show v.port q = _
    rw [show v.discardRetired.port q = v.port q from rfl, ports q]
    rfl
  · show (v.port q).gaps = _
    rw [ports q]
    simp only [HostPort.raise_gaps, HostPort.post_gaps, HostPort.foldl_toldStale_gaps]
    rfl

end ends

/-! ### The Ring Engine in BROKEN and in RUNNING -/

section engine
variable {s : State} {r : CycleRecord} {rest : List CycleRecord} {octets : List Byte} {cls : ReturnClass}

/-- The heal run after a good return in BROKEN (R104). -/
def healing (s : State) (rest : List CycleRecord) (hop : Nat) : Ring :=
  { s.ring with
    sent := rest, heal := s.ring.heal + 1, healOdd := s.ring.healOdd || decide (hop ≠ s.nodes.count.val) }

/-- A good return in BROKEN, before the heal count is compared (R104). -/
theorem engine_heals (hstate : s.ring.state = .broken) (hsent : s.ring.sent = r :: rest) :
    (s.released r (.good octets)).engine r (.good octets) =
      let v : State := { s with ring := s.healing rest (numAt octets 5) }
      if s.ring.healCount ≤ s.ring.heal + 1 then
        if (s.healing rest (numAt octets 5)).healOdd then v.halt .shape
        else (v.enterRing .running .healed).beginVerification
      else v := by
  have odd : (numAt octets 5 != s.nodes.count.val) = decide (numAt octets 5 ≠ s.nodes.count.val) := by
    rw [Bool.eq_iff_iff]; simp
  simp only [engine, released, hstate, goodInBroken, hsent, List.tail_cons, Ring.beaconedAfter_good, healing, odd]

/-- The heal run below the heal count (R104). -/
theorem engine_heals_below (hstate : s.ring.state = .broken) (hsent : s.ring.sent = r :: rest)
    (below : s.ring.heal + 1 < s.ring.healCount) :
    (s.released r (.good octets)).engine r (.good octets) =
      s.engineLeft (fun h => h) (s.healing rest (numAt octets 5)) s.nodes false := by
  rw [engine_heals hstate hsent, engineLeft_ring]
  exact if_neg (Nat.not_le.mpr below)

/-- The positions of a verification round (R141). -/
def toVerify (s : State) : List Pos :=
  allPositions.filter fun p => (s.node p).state == .ready || (s.node p).state == .stale

/-- A verification round is of the READY and STALE positions, and there is none without one (R141). -/
theorem beginVerification_eq (s : State) : s.beginVerification =
    { s with nodes := { s.nodes with procedure := if s.toVerify = [] then .idle else .verifying s.toVerify } } := by
  have begins : s.beginVerification = { s with
      nodes := { s.nodes with procedure := if s.toVerify.isEmpty then .idle else .verifying s.toVerify } } := rfl
  simp only [begins, List.isEmpty_iff]

/-- The heal count reached with every hop count as it should be (R104). -/
theorem engine_healed (hstate : s.ring.state = .broken) (hsent : s.ring.sent = r :: rest)
    (full : s.ring.healCount ≤ s.ring.heal + 1) (even : (s.healing rest (numAt octets 5)).healOdd = false) :
    (s.released r (.good octets)).engine r (.good octets) =
      s.engineLeft (fun h => (h.post (.ringState .running 0 .healed)).raise .ringChange)
        { s.healing rest (numAt octets 5) with state := .running, misses := 0, shape := 0, breakPos := 0 }
        { s.nodes with procedure := if s.toVerify = [] then .idle else .verifying s.toVerify }
        (decide (s.turnover.state = .waiting)) := by
  rw [engine_heals hstate hsent]
  dsimp only
  rw [if_pos full, if_neg (Bool.eq_false_iff.mp even), enterRing_running, beginVerification_eq]
  rfl

/-- The heal count reached with another hop count in the run (R104). -/
theorem engine_healed_odd (hstate : s.ring.state = .broken) (hsent : s.ring.sent = r :: rest)
    (full : s.ring.healCount ≤ s.ring.heal + 1) (odd : (s.healing rest (numAt octets 5)).healOdd = true) :
    (s.released r (.good octets)).engine r (.good octets) =
      s.engineLeft (fun h => (h.post (.ringState .halted s.ring.breakPos .shape)).raise .ringDown)
        { s.healing rest (numAt octets 5) with state := .halted } s.nodes false := by
  have broken : ({ s with ring := s.healing rest (numAt octets 5) } : State).running = false := by
    simp [running, healing, hstate]
  rw [engine_heals hstate hsent]
  dsimp only
  rw [if_pos full, if_pos odd, halt, leaveRunning_of_not_running true broken, enterRing_halted]
  simp only [engineLeft, Bool.or_false]
  rfl

/-- A good or damaged return in RUNNING has its hop count compared (R98, R99). -/
theorem engine_compares (hstate : s.ring.state = .running) (hsent : s.ring.sent = r :: rest)
    (hcls : cls = .good octets ∨ cls = .damaged octets) {n : Nat} (hop : hopOf r octets = some n) :
    (s.released r cls).engine r cls =
      ({ s with ring := { s.ring with sent := rest } } : State).returnInRunning (some n) := by
  rw [← hop]
  obtain rfl | rfl := hcls <;>
    simp only [engine, released, hstate, hsent, List.tail_cons, Ring.beaconedAfter_good, Ring.beaconedAfter_damaged]

/-- The first shape mismatch is counted (R99). -/
theorem engine_mismatch_first (hstate : s.ring.state = .running) (hsent : s.ring.sent = r :: rest)
    (hcls : cls = .good octets ∨ cls = .damaged octets) {n : Nat} (hop : hopOf r octets = some n)
    (odd : n ≠ s.nodes.count.val) (first : s.ring.shape = 0) :
    (s.released r cls).engine r cls = s.engineLeft (fun h => h)
      { s.ring with sent := rest, misses := 0, breakPos := 0, shape := 1 } s.nodes false := by
  rw [engine_compares hstate hsent hcls hop,
    returnInRunning_stays (s := { s with ring := { s.ring with sent := rest } }) fun _ _ => .inr first,
    engineLeft_ring]
  simp [Ring.shapeAfter, odd, first]

/-- The second shape mismatch in a row halts the ring (R99). -/
theorem engine_mismatch_second (hstate : s.ring.state = .running) (hsent : s.ring.sent = r :: rest)
    (hcls : cls = .good octets ∨ cls = .damaged octets) {n : Nat} (hop : hopOf r octets = some n)
    (odd : n ≠ s.nodes.count.val) (again : 1 ≤ s.ring.shape) :
    (s.released r cls).engine r cls = ({ s with
      ring := { s.ring with sent := rest, misses := 0, breakPos := 0, shape := s.ring.shape + 1 } } : State).halt
        .shape := by
  rw [engine_compares hstate hsent hcls hop, returnInRunning]
  dsimp only
  rw [if_neg odd, if_pos (by omega)]

end engine

/-! ### What ends the heal run -/

section broken
variable {s : State} {r : CycleRecord} {rest : List CycleRecord} {damaged : List Byte} {cell : Nat}

/-- A miss ends the heal run and sets the break position where there is none (R98, R104). -/
theorem exec_missInBroken (hsent : s.ring.sent = r :: rest) (hstate : s.ring.state = .broken)
    (hn : s.decidesNothing r) (hq : s.nothingListed r) :
    ∃ u, exec .returnWindowExpiry s = .next u ∧
      u.ring = { s.ring with
        sent := rest, heal := 0, healOdd := false
        breakPos := if s.ring.breakPos = 0 then 16 else s.ring.breakPos } := by
  have misses : s.returnsMissed r rest .returnWindowExpiry (s.ring.afterMiss r rest none) :=
    ⟨fun running => (nomatch hstate.symm.trans running), none, .inl ⟨rfl, rfl⟩, rfl⟩
  obtain ⟨origin, d, missed⟩ := exec_returnsMissed hsent misses
  refine ⟨_, missed, ?_⟩
  rw [channel_of_decidesNothing (s := { s with ring := s.ring.afterMiss r rest none }) hn,
    concluded_of_nothingListed (s := s) (u := { s with ring := s.ring.afterMiss r rest none }) rfl hq]
  simp [Ring.afterMiss, hstate]

/-- A damaged return ends the heal run (R104). -/
theorem exec_damagedInBroken (hsent : s.ring.sent = r :: rest) (hears : s.ring.hearsAtLatency r cell)
    (hstate : s.ring.state = .broken) (hn : s.decidesNothing r) (hq : s.nothingListed r)
    (damages : s.ring.damages r damaged) :
    ∃ u, exec (.returnEvaluation cell ⟨damaged, []⟩) s = .next u ∧
      u.ring = { s.ring with sent := rest, heal := 0, healOdd := false } := by
  obtain ⟨d, returned⟩ := exec_returnsDamaged hsent
    ⟨⟨cell, hears, rfl⟩, damages, fun running => (nomatch hstate.symm.trans running), rfl⟩
  refine ⟨_, returned, ?_⟩
  rw [channel_of_decidesNothing (s := { s with ring := s.ring.afterDamaged rest _ }) hn,
    concluded_of_nothingListed (s := s) (u := { s with ring := s.ring.afterDamaged rest _ }) rfl hq]
  simp [Ring.afterDamaged, hstate]

end broken

/-! ### The return with the cycle's own header -/

/-- A return with a good header check, kind HUB and the cycle's count is good or damaged by its payload check
(R97). -/
theorem classify_of_header {g : Ring} {r : CycleRecord} {octets : List Byte} (header : headerGood octets = true)
    (hub : isBeacon octets = false) (count : countOf octets = r.count) :
    (payloadGood octets = true ∧ goodReturnOf r octets ∨ payloadGood octets = false ∧ g.damages r octets) := by
  cases payload : payloadGood octets with
  | true => exact .inl ⟨rfl, header, payload, hub, count⟩
  | false =>
    refine .inr ⟨rfl, fun good => ?_, fun _ => ⟨hub, fun other => absurd count other⟩⟩
    exact Bool.false_ne_true (payload.symm.trans good.2.1)

end State

/-- Settles O56: the Ring Engine's part in each case, and the end of the return from there. -/
theorem ringHealsOrHalts : Obligations.RingHealsOrHalts := by
  intro s r rest octets cell hsent hears hq header hub count odd healing
  have hop : hopOf r octets = some (numAt octets 5) := by simp [hopOf, header, hub, count]
  have late : s.ring.late r octets = false := Bool.eq_false_iff.mpr fun l => (Ring.late_iff.mp l).2.2.1 count
  have cls : classify r octets = .good octets ∨ classify r octets = .damaged octets := by
    obtain ⟨-, good⟩ | ⟨-, damages⟩ := State.classify_of_header (g := s.ring) header hub count
    · exact .inl good.classify
    · exact .inr damages.classify
  have hexec : exec (.returnEvaluation cell ⟨octets, []⟩) s = .next
      (s.evaluate r (classify r octets) (cell - r.start) []) := by
    rw [State.exec_returned hsent hears.hears late, State.follow_of_not_drifts hears.not_drifts]
  refine ⟨_, hexec, State.evaluate_retiresAfter hsent _ _,
    ⟨fun broken payload hn => ?_, fun running mismatch => ⟨fun first hn => ?_, fun again hx hl => ?_⟩⟩,
    fun broken hn => ⟨?_, fun damaged damages => ?_⟩⟩
  · have good : goodReturnOf r octets := ⟨header, payload, hub, count⟩
    rw [good.classify]
    refine ⟨fun below => ?_, fun full even => ?_, fun full uneven => ?_⟩
    · exact State.evaluate_of_engineLeft hn hq (State.engine_heals_below broken hsent below) (fun _ => rfl) _
    · exact State.evaluate_of_engineLeft hn hq (State.engine_healed broken hsent full even)
        (fun distributing => by rw [distributing]; rfl) _
    · exact State.evaluate_of_engineLeft hn hq (State.engine_healed_odd broken hsent full uneven) (fun _ => rfl) _
  · exact State.evaluate_of_engineLeft hn hq (State.engine_mismatch_first running hsent cls hop mismatch first)
      (fun _ => rfl) _
  · exact State.evaluate_of_halt hsent hq (State.engine_mismatch_second running hsent cls hop mismatch again) running hl
      hx _
  · exact State.exec_missInBroken hsent broken hn hq
  · exact State.exec_damagedInBroken hsent hears broken hn hq damages

end Sys2Proof.Machine
end

section
/-! SUPPORT. How a Ring Start begins the quiet cycles (R106). -/

namespace Sys2Proof.Machine

/-- A Ring Start in OFF begins the quiet cycles toward NUMBERING (R106). -/
theorem actRingStart_begins {s : State} {p : Port} {f : List Byte} (auth : (s.port p).authority = true)
    (off : s.ring.state = .off) : actRingStart p f s = answered (s.beginQuiet .numbering .start) [] := by
  rw [actRingStart, ringLevel_acts auth, if_pos off]

/-- Settles O32: the ring entering QUIETING at the item of the authority port. -/
theorem ringStartQuietsRing : Obligations.RingStartQuietsRing := by
  intro s p tag f hf hp ha auth off
  subst hf
  have authority : ((s.beginItem p (frameOf tag 0x31 [])).port p).authority = true := by
    rw [State.beginItem_authority, auth]
  have taken : exec .ringStart s = .next (s.runItem p _ (actRingStart p _)) :=
    congrArg _ (State.takeRequest_wellFormed _ hp ha rfl rfl)
  exact ⟨_, taken, State.runItem_entersRing (s := s)
    (u := { s with ring := { s.ring with quietDest := some .numbering, quietLeft := 4 } }) rfl rfl
    (actRingStart_begins authority off) (State.processing_of_pick hp) rfl⟩

end Sys2Proof.Machine
end

section
/-! SUPPORT. A cycle put together from its parts, and how its octets are found on the line again (R87, R88, R187 to
R189). -/

namespace Sys2Proof.Machine

/-! ### The parts of a cycle -/

/-- A cycle put together from the parts of R187: mark, header, header check, payload area, payload check and gap. -/
def cycleParts (mark body : List Byte) (check : Byte) (payload sum gap : List Byte) : List Byte :=
  mark ++ body ++ [check] ++ payload ++ sum ++ gap

/-- What the hub composes, in parts (R187). -/
theorem cycleOctets_eq_parts (beacon turnover : Bool) (e : Epoch) (count : CycleCount) (hop origin : Byte)
    (control payload : List Byte) :
    let body := kindEpoch beacon turnover e :: (octets16 count ++ [hop, origin] ++ control)
    cycleOctets beacon turnover e count hop origin control payload =
      cycleParts [0xF0, 0x0F] body (crc8 body) payload (octets16 (crc16 payload)) (zeros 6) := rfl

theorem octetAt_drop (f : List Byte) (n m : Nat) : octetAt (f.drop n) m = octetAt f (n + m) := by
  simp [octetAt, List.getD_eq_getElem?_getD]

theorem octets16_append (v : BitVec 16) : (v.extractLsb' 8 8 ++ v.extractLsb' 0 8 : BitVec 16) = v :=
  (BitVec.extractLsb'_append_extractLsb'_eq_extractLsb' (x := v) (start₁ := 0) (len₁ := 8) (start₂ := 8)
    (len₂ := 8) rfl).trans BitVec.extractLsb'_eq_self

section parts
variable {mark body payload sum gap : List Byte} (check : Byte)

theorem cycleParts_drop_header (hm : mark.length = 2) :
    (cycleParts mark body check payload sum gap).drop 2 = body ++ (check :: (payload ++ (sum ++ gap))) := by
  simp only [cycleParts, List.append_assoc]
  exact List.drop_left' hm

theorem cycleParts_drop_check (hm : mark.length = 2) (hb : body.length = 21) :
    (cycleParts mark body check payload sum gap).drop 23 = check :: (payload ++ (sum ++ gap)) := by
  rw [← List.drop_drop (i := 21) (j := 2), cycleParts_drop_header check hm, List.drop_left' hb]

theorem cycleParts_drop_payload (hm : mark.length = 2) (hb : body.length = 21) :
    (cycleParts mark body check payload sum gap).drop 24 = payload ++ (sum ++ gap) := by
  rw [← List.drop_drop (i := 1) (j := 23), cycleParts_drop_check check hm hb, List.drop_one, List.tail_cons]

theorem payloadOf_cycleParts (hm : mark.length = 2) (hb : body.length = 21) (hp : payload.length = 224) :
    payloadOf (cycleParts mark body check payload sum gap) = payload := by
  rw [payloadOf, cycleParts_drop_payload check hm hb]
  exact List.take_left' hp

/-- The header check of a cycle is that of its header (R188). -/
theorem headerGood_cycleParts (hm : mark.length = 2) (hb : body.length = 21) :
    headerGood (cycleParts mark body check payload sum gap) = (crc8 body == check) := by
  rw [headerGood, headerBody, ← octetAt_drop _ 23 0, cycleParts_drop_check check hm hb, cycleParts_drop_header check hm,
    List.take_left' hb]
  rfl

/-- The payload check of a cycle is that of its payload area (R189). -/
theorem payloadGood_cycleParts {a b : Byte} (hm : mark.length = 2) (hb : body.length = 21)
    (hp : payload.length = 224) :
    payloadGood (cycleParts mark body check payload [a, b] gap) = (crc16 payload == (a ++ b : BitVec 16)) := by
  have sum : (cycleParts mark body check payload [a, b] gap).drop 248 = a :: b :: gap := by
    rw [← List.drop_drop (i := 224) (j := 24), cycleParts_drop_payload check hm hb, List.drop_left' hp]
    rfl
  rw [payloadGood, payloadOf_cycleParts check hm hb hp, ← octetAt_drop _ 248 0, ← octetAt_drop _ 248 1, sum]
  rfl

end parts

theorem isBeacon_cycleOctets (beacon turnover : Bool) (e : Epoch) (count : CycleCount) (hop origin : Byte)
    (control payload : List Byte) :
    isBeacon (cycleOctets beacon turnover e count hop origin control payload) = beacon := by
  show (kindEpoch beacon turnover e).getLsbD 7 = beacon
  revert beacon turnover e; decide

/-! ### Levels and cells (R87) -/

/-- The cells of a line are read back from its levels (R87). -/
theorem cellsOf_levelsOf (level : Bool) (cells : List Cell) : cellsOf level (levelsOf level cells) = cells := by
  induction cells generalizing level with
  | nil => rfl
  | cons c cells ih =>
    have back (t l : Bool) : (l != flip t l) = t := by cases t <;> cases l <;> rfl
    rw [levelsOf_cons, cellsOf, back, back, ih]

/-- A data cell changes the level at its start, and one with a 1 at its middle too (R87). -/
theorem levelsOf_dataCell (level b : Bool) (cells : List Cell) :
    levelsOf level (dataCell b :: cells) =
      (!level) :: (if b then level else !level) :: levelsOf (if b then level else !level) cells := by
  cases b <;> simp [dataCell]

/-! ### The receiver (R87) -/

/-- A receiver passes data cells over. -/
theorem markAt_dataCells (n : Nat) (bits : List Bool) (l : List Cell) :
    markAt n (bits.map dataCell ++ l) = markAt (n + bits.length) l := by
  induction bits generalizing n with
  | nil => rfl
  | cons b bits ih =>
    have passed (m : List Cell) : markAt n (dataCell b :: m) = markAt (n + 1) m := by
      cases m with
      | nil => rfl
      | cons d m => exact markAt_cons n m rfl
    rw [List.map_cons, List.cons_append, passed, ih, List.length_cons]
    congr 1; omega

/-- A mark is found at the cell at which it begins. -/
theorem markAt_markCells (n : Nat) (l : List Cell) : markAt n (markCells ++ l) = some n := by
  have cells : markCells ++ l = [true, true, true, true, false, false, false].map dataCell ++
      ({ start := false, middle := false } :: { start := false, middle := false } :: (markCells.drop 9 ++ l)) := rfl
  rw [cells, markAt_dataCells, markAt, if_pos ⟨rfl, rfl, by simp⟩]
  rfl

/-- Octets are read from the middles of their cells, whatever follows. -/
theorem octetsFrom_of_middles (l : List Byte) (cells tail : List Cell) (h : cells.map Cell.middle = spiBits l) :
    octetsFrom l.length (cells ++ tail) = l := by
  induction l generalizing cells with
  | nil => rfl
  | cons b l ih =>
    rw [spiBits_cons, List.map_eq_append_iff] at h
    obtain ⟨first, others, rfl, hfirst, hothers⟩ := h
    have eight : first.length = 8 := by rw [← List.length_map Cell.middle, hfirst, octetBits_length]
    rw [List.length_cons, octetsFrom, List.append_assoc, List.take_left' eight, List.drop_left' eight, hfirst,
      octetOf_octetBits, ih others hothers]

/-- The middles of a cycle's cells are the bits of its octets, the mark's two among them (R87). -/
theorem cycleCells_middles (rest : List Byte) :
    (cycleCells (0xF0 :: 0x0F :: rest)).map Cell.middle = spiBits (0xF0 :: 0x0F :: rest) := by
  have data : (dataCells rest).map Cell.middle = spiBits rest := by
    rw [dataCells, List.map_map]
    exact List.map_id _
  have mark : markCells.map Cell.middle = octetBits 0xF0 ++ octetBits 0x0F := by decide
  rw [cycleCells, List.map_append, mark, List.append_assoc]
  exact congrArg _ (congrArg _ data)

/-- A cycle sent after data cells is found where its mark begins, with its octets (R87). -/
theorem receiveCycle_cycleCells (bits : List Bool) (rest : List Byte) (tail : List Cell) (h : rest.length = 254) :
    receiveCycle (bits.map dataCell ++ cycleCells (0xF0 :: 0x0F :: rest) ++ tail) =
      some (bits.length, 0xF0 :: 0x0F :: rest) := by
  have octets := octetsFrom_of_middles _ _ tail (cycleCells_middles rest)
  rw [List.length_cons, List.length_cons, h] at octets
  have found : markAt 0 (bits.map dataCell ++ (cycleCells (0xF0 :: 0x0F :: rest) ++ tail)) = some bits.length := by
    rw [markAt_dataCells, Nat.zero_add, cycleCells, List.append_assoc, markAt_markCells]
  rw [receiveCycle, List.append_assoc, found, Option.map_some, List.drop_left' (List.length_map _), octets]

/-- Settles O43: the octets by the parts of the cycle, and the line by the mark and the middles of its cells. -/
theorem sentCycleReadsBack : Obligations.SentCycleReadsBack := by
  refine ⟨fun flag e count control payload hc hp => ?_, fun level b cells =>
    ⟨levelsOf_dataCell level b cells, cellsOf_levelsOf level cells⟩, fun bits c rest tail => ⟨?_, fun hcycle hl => ?_⟩⟩
  · have body : (kindEpoch false flag e :: (octets16 count ++ [0, 0] ++ control)).length = 21 := by
      simp [octets16, hc]
    intro c
    have parts : c = _ := cycleOctets_eq_parts false flag e count 0 0 control payload
    refine ⟨?_, ?_, ?_, isBeacon_cycleOctets .., countOf_cycleOctets .., epochOf_cycleOctets ..,
      turnoverOf_cycleOctets .., controlOf_cycleOctets _ _ _ _ _ _ _ hc, ?_, rfl⟩
    · rw [parts]; simp [cycleParts, hc, hp, octets16, zeros]
    · rw [parts, headerGood_cycleParts _ rfl body, beq_self_eq_true]
    · rw [parts]
      exact (payloadGood_cycleParts _ rfl body hp).trans (by rw [octets16_append, beq_self_eq_true])
    · rw [parts, payloadOf_cycleParts _ rfl body hp]
  · have unmarked := markAt_dataCells 0 bits []
    rw [List.append_nil] at unmarked
    rw [receiveCycle, unmarked]
    rfl
  · subst hcycle
    have received := receiveCycle_cycleCells bits rest tail (by simpa using hl)
    refine ⟨received, by rw [cycleCells_length (by simp), hl], fun first drains => ?_⟩
    rw [heardOn, received, Option.map_some]
    simp only [goodBeacon_iff]

end Sys2Proof.Machine
end

section
/-! SUPPORT. What a ring node makes of a control field: the tap records read back, and the pending plan (R92, R190). -/

namespace Sys2Proof.Machine

/-! ### Tap records (R190) -/

theorem extractLsb'_append_low {v w : Nat} (hi : BitVec v) (lo : BitVec w) : (hi ++ lo).extractLsb' 0 w = lo :=
  (BitVec.extractLsb'_append_eq_of_add_le (by omega)).trans BitVec.extractLsb'_eq_self

theorem extractLsb'_append_high {v w : Nat} (hi : BitVec v) (lo : BitVec w) (start len : Nat) :
    (hi ++ lo).extractLsb' (w + start) len = hi.extractLsb' start len :=
  (BitVec.extractLsb'_append_eq_of_le (by omega)).trans (by rw [Nat.add_sub_cancel_left])

/-- The fields of a tap record's 24 bits, from the last to the first. -/
theorem extractLsb'_tapRecord (page : BitVec 3) (role : BitVec 1) (offset : BitVec 8) (length stream : BitVec 6) :
    let w : BitVec 24 := page ++ role ++ offset ++ length ++ stream
    w.extractLsb' 0 6 = stream ∧ w.extractLsb' 6 6 = length ∧ w.extractLsb' 12 8 = offset ∧
      w.extractLsb' 20 1 = role ∧ w.extractLsb' 21 3 = page := by
  have pastStream := extractLsb'_append_high (page ++ role ++ offset ++ length) stream
  have pastLength := extractLsb'_append_high (page ++ role ++ offset) length
  have pastOffset := extractLsb'_append_high (page ++ role) offset
  exact ⟨extractLsb'_append_low _ _, (pastStream 0 6).trans (extractLsb'_append_low _ _),
    (pastStream 6 8).trans ((pastLength 0 8).trans (extractLsb'_append_low _ _)),
    (pastStream 14 1).trans ((pastLength 8 1).trans ((pastOffset 0 1).trans (extractLsb'_append_low _ _))),
    (pastStream 15 3).trans ((pastLength 9 3).trans ((pastOffset 1 3).trans
      ((extractLsb'_append_high page role 0 3).trans BitVec.extractLsb'_eq_self)))⟩

/-- Twenty-four bits are those of their three octets. -/
theorem append_threeOctets (w : BitVec 24) :
    (w.extractLsb' 16 8 ++ w.extractLsb' 8 8 ++ w.extractLsb' 0 8 : BitVec 24) = w := by
  have joined : (w.extractLsb' 16 8 ++ w.extractLsb' 8 8 : BitVec 16) = w.extractLsb' 8 16 :=
    BitVec.extractLsb'_append_extractLsb'_eq_extractLsb' rfl
  rw [joined]
  exact (BitVec.extractLsb'_append_extractLsb'_eq_extractLsb' (x := w) (start₁ := 0) rfl).trans
    BitVec.extractLsb'_eq_self

/-- A tap record whose fields are those of a tap is read as that tap. -/
theorem tapOf_of_fields {w : BitVec 24} {t : Tap} (stream : (w.extractLsb' 0 6).toNat = t.stream.val)
    (length : (w.extractLsb' 6 6).toNat = t.length) (offset : (w.extractLsb' 12 8).toNat = t.offset)
    (role : (if w.getLsbD 20 then TapRole.write else .read) = t.role)
    (page : (w.extractLsb' 21 3).toNat = t.page.val) :
    tapOf (w.extractLsb' 16 8) (w.extractLsb' 8 8) (w.extractLsb' 0 8) = some t := by
  unfold tapOf
  simp only [append_threeOctets, stream, length, offset, role, page, t.stream.isLt, dif_pos]

/-- A tap record is read back from its octets (R190). -/
theorem tapOf_octets {t : Tap} (offset : t.offset ≤ 222) (length : t.length ≤ 33) :
    ∃ a b c, t.octets = [a, b, c] ∧ tapOf a b c = some t := by
  have stream := t.stream.isLt
  have page := t.page.isLt
  obtain ⟨streamBits, lengthBits, offsetBits, roleBits, pageBits⟩ := extractLsb'_tapRecord
    (BitVec.ofNat 3 t.page.val) (BitVec.ofNat 1 (match t.role with | .read => 0 | .write => 1))
    (BitVec.ofNat 8 t.offset) (BitVec.ofNat 6 t.length) (BitVec.ofNat 6 t.stream.val)
  have roleBit := congrArg (BitVec.getLsbD · 0) roleBits
  simp only [BitVec.getLsbD_extractLsb', Nat.zero_lt_one, decide_true, Bool.true_and, Nat.add_zero] at roleBit
  have number {x n : Nat} {w : BitVec n} (bits : w = BitVec.ofNat n x) (small : x < 2 ^ n) : w.toNat = x := by
    rw [bits, BitVec.toNat_ofNat, Nat.mod_eq_of_lt small]
  refine ⟨_, _, _, rfl, tapOf_of_fields (number streamBits (by omega)) (number lengthBits (by omega))
    (number offsetBits (by omega)) ((congrArg (if · then TapRole.write else .read) roleBit).trans ?_)
    (number pageBits (by omega))⟩
  cases t.role <;> rfl

/-- The tap record at a place of a list of them (R190). -/
def tapAt (f : List Byte) (i : Nat) : Option Tap :=
  tapOf (octetAt f (3 * i)) (octetAt f (3 * i + 1)) (octetAt f (3 * i + 2))

theorem tapAt_zero (a b c : Byte) (f : List Byte) : tapAt (a :: b :: c :: f) 0 = tapOf a b c := rfl

theorem tapAt_succ (a b c : Byte) (f : List Byte) (i : Nat) : tapAt (a :: b :: c :: f) (i + 1) = tapAt f i := by
  unfold tapAt
  rw [Nat.mul_succ]
  rfl

/-- The records of a control field stand from its octet 7 on. -/
theorem tapsOf_eq (f : List Byte) : tapsOf f = (List.range (min 3 (numAt f 6))).filterMap (tapAt (f.drop 7)) := by
  refine List.filterMap_congr fun i _ => ?_
  simp only [tapAt, octetAt_drop]
  congr 2 <;> omega

/-- Tap records one after another are read back in their order. -/
theorem filterMap_tapAt {taps : List Tap} (range : ∀ t ∈ taps, t.offset ≤ 222 ∧ t.length ≤ 33) (rest : List Byte) :
    (List.range taps.length).filterMap (tapAt (taps.flatMap Tap.octets ++ rest)) = taps := by
  induction taps with
  | nil => rfl
  | cons t taps ih =>
    obtain ⟨inRange, others⟩ := List.forall_mem_cons.mp range
    obtain ⟨a, b, c, octets, read⟩ := tapOf_octets inRange.1 inRange.2
    rw [List.flatMap_cons, octets, List.length_cons, List.range_succ_eq_map]
    simp only [List.cons_append, List.nil_append]
    rw [List.filterMap_cons_some (b := t) ((tapAt_zero ..).trans read), List.filterMap_map]
    refine congrArg (t :: ·) (Eq.trans (List.filterMap_congr fun i _ => ?_) (ih others))
    exact tapAt_succ ..

theorem padTo_of_le {n : Nat} {l : List Byte} (h : l.length ≤ n) : padTo n l = l ++ zeros (n - l.length) := by
  rw [padTo, List.take_append, List.take_of_length_le h, List.take_replicate, zeros, Nat.min_eq_left (Nat.sub_le ..)]

/-- At most three tap records are read back from a TAPLOAD (R190). -/
theorem tapsOf_tapload {taps : List Tap} (few : taps.length ≤ 3)
    (range : ∀ t ∈ taps, t.offset ≤ 222 ∧ t.length ≤ 33) (p : Pos) (e : Epoch) (part parts : Nat) (sequence : Byte) :
    tapsOf ((Message.tapload p e part parts taps).octets sequence) = taps := by
  have records : (taps.flatMap Tap.octets).length = 3 * taps.length := by
    rw [List.length_flatMap, show (fun t : Tap => t.octets.length) = fun _ => 3 from rfl]
    simp [Nat.mul_comm]
  have fits : ([epochOctet e, octet part, octet parts, octet taps.length] ++ taps.flatMap Tap.octets).length ≤ 13 := by
    rw [List.length_append, records, List.length_cons]; simp; omega
  have count : min 3 (octet taps.length).toNat = taps.length := by
    rw [octet_toNat (by omega), Nat.min_eq_right few]
  rw [tapsOf_eq, Message.octets, Message.body, padTo_of_le fits]
  generalize zeros _ = rest
  calc (List.range (min 3 (octet taps.length).toNat)).filterMap (tapAt (taps.flatMap Tap.octets ++ rest))
    _ = taps := by rw [count, filterMap_tapAt range]

/-! ### The pending plan (R92) -/

/-- An epoch is read back from its octet (R190). -/
theorem extractLsb'_epochOctet (e : Epoch) : (epochOctet e).extractLsb' 0 4 = e := by revert e; decide

namespace NodeChip
variable {n : NodeChip} {e : Epoch} {part parts : Nat} {taps : List Tap} {q : PendingPlan}

theorem load_first (fits : taps.length ≤ n.identity.capacity) :
    n.load e 1 parts taps = (some { epoch := e, parts := parts, received := 1, taps := taps }, true) := by
  rw [load, if_pos rfl, if_pos fits]

/-- A part after the first finds the pending plan that it belongs to. -/
theorem load_later (pending : n.pending = some q) (epoch : q.epoch = e) (count : q.parts = parts) (later : 2 ≤ part) :
    n.load e part parts taps =
      if part = q.received + 1 then
        if (q.taps ++ taps).length ≤ n.identity.capacity then
          (some { q with received := part, taps := q.taps ++ taps }, true)
        else (none, false)
      else if part ≤ q.received then (some q, true)
      else (none, false) := by
  rw [load, if_neg (by omega), pending]
  simp only [epoch, count, later, true_and]

/-- A message of a kind that is no broadcast goes to the node at its target (R114). -/
theorem control_addressed {p : Pos} {f : List Byte} (number : octetAt f 0 ≠ 0x01) (quiet : octetAt f 0 ≠ 0x02)
    (position : n.position = some p) (target : numAt f 1 = posNum p) : n.control f = n.answer p f := by
  simp only [control, number, quiet, position, target, if_true, if_false]

/-- What a node answers to a TAPLOAD that addresses it: LOADACK or NAK, by what its pending plan makes of the part
(R92, R114, R121). -/
theorem control_tapload {p : Pos} (position : n.position = some p) (few : taps.length ≤ 3)
    (range : ∀ t ∈ taps, t.offset ≤ 222 ∧ t.length ≤ 33) (hpart : part ≤ 22) (hparts : parts ≤ 22) (sequence : Byte) :
    n.control ((Message.tapload p e part parts taps).octets sequence) =
      ({ n with
          pending := (n.load e part parts taps).1
          byLoad := if (n.load e part parts taps).1.isSome then true else n.byLoad },
        replyField (if (n.load e part parts taps).2 then 0x21 else 0x23) p sequence [epochOctet e, octet part]) := by
  have records := tapsOf_tapload few range p e part parts sequence
  generalize hf : (Message.tapload p e part parts taps).octets sequence = f at *
  have kind : octetAt f 0 = 0x11 := by rw [← hf]; rfl
  have target : numAt f 1 = posNum p := by rw [← hf]; exact octet_pos_toNat p
  have seq : octetAt f 2 = sequence := by rw [← hf]; rfl
  have epoch : octetAt f 3 = epochOctet e := by rw [← hf]; rfl
  have partOctet : octetAt f 4 = octet part := by rw [← hf]; rfl
  have partNum : numAt f 4 = part := by rw [numAt, partOctet, octet_toNat (by omega)]
  have partsNum : numAt f 5 = parts := by rw [← hf]; exact octet_toNat (by omega)
  rw [control_addressed (by rw [kind]; decide) (by rw [kind]; decide) position target, answer, kind,
    if_neg (by decide), if_pos rfl, epoch, extractLsb'_epochOctet, partNum, partsNum, records, seq, partOctet]

end NodeChip

/-- Settles O59: the records read back, and the pending plan's part in each case. -/
theorem taploadBuildsPendingPlan : Obligations.TaploadBuildsPendingPlan := by
  intro n p e parts taps sequence position few capacity one most range
  refine ⟨?_, fun q part pending epoch count later last => ?_⟩
  · rw [NodeChip.control_tapload position few range (by omega) most, NodeChip.load_first (by omega)]
    rfl
  · have answered := NodeChip.control_tapload (e := e) position few range (last.trans most) most sequence
    rw [NodeChip.load_later pending epoch count later] at answered
    refine ⟨fun held => ?_, fun next fits => ?_, fun beyond => ?_⟩
    · rw [answered, if_neg (by omega), if_pos held]
      show ({ n with pending := some q, byLoad := true }, _) = _
      rw [← pending]
      rfl
    · rw [answered, if_pos next, if_pos fits]
      rfl
    · rw [answered]
      obtain later | ⟨next, large⟩ := beyond
      · rw [if_neg (by omega), if_neg (by omega)]
        rfl
      · rw [if_pos next, if_neg (by omega)]
        rfl

end Sys2Proof.Machine
end

section
/-! SUPPORT. A cycle that passes a ring node: the cycle it forwards, and what it writes into the payload area (R90, R91,
R93, R94). -/

namespace Sys2Proof.Machine

/-! ### What a node forwards (R90) -/

/-- The header that a node forwards: the hop count raised, stopping at 255, and the control field `field`. -/
def raisedHeader (c field : List Byte) : List Byte :=
  octetAt c 2 :: octetAt c 3 :: octetAt c 4 :: octet (min 255 (numAt c 5 + 1)) :: octetAt c 6 :: field

section forwarded
variable {c field payload check : List Byte}

theorem forwarded_eq_parts : forwarded c field payload check =
    cycleParts (c.take 2) (raisedHeader c field) (crc8 (raisedHeader c field)) payload check (c.drop 250) := rfl

theorem raisedHeader_length (hf : field.length = 16) : (raisedHeader c field).length = 21 := by
  simp [raisedHeader, hf]

theorem take_mark_length (hc : c.length = 256) : (c.take 2).length = 2 := by
  rw [List.length_take, hc]; rfl

theorem controlOf_length (hc : c.length = 256) : (controlOf c).length = 16 := by
  rw [controlOf, List.length_take, List.length_drop, hc]; rfl

theorem payloadOf_length (hc : c.length = 256) : (payloadOf c).length = 224 := by
  rw [payloadOf, List.length_take, List.length_drop, hc]; rfl

/-- A cycle from its payload area on (R187). -/
theorem drop_payload (hc : c.length = 256) :
    c.drop 24 = payloadOf c ++ ([octetAt c 248, octetAt c 249] ++ c.drop 250) := by
  have sum : c.drop 248 = [octetAt c 248, octetAt c 249] ++ c.drop 250 := by
    rw [List.drop_eq_getElem_cons (by omega), List.drop_eq_getElem_cons (by omega)]
    simp [octetAt, List.getD_eq_getElem?_getD, hc]
  rw [← sum, payloadOf, ← List.drop_drop (i := 224) (j := 24)]
  exact (List.take_append_drop _ _).symm

theorem drop_header_forwarded (hc : c.length = 256) : (forwarded c field payload check).drop 2 =
    raisedHeader c field ++ (crc8 (raisedHeader c field) :: (payload ++ (check ++ c.drop 250))) :=
  cycleParts_drop_header _ (take_mark_length hc)

theorem drop_payload_forwarded (hc : c.length = 256) (hf : field.length = 16) :
    (forwarded c field payload check).drop 24 = payload ++ (check ++ c.drop 250) :=
  cycleParts_drop_payload _ (take_mark_length hc) (raisedHeader_length hf)

/-- What was not written is forwarded as it arrived (R90, R91). -/
theorem drop_payload_unwritten (hc : c.length = 256) (hf : field.length = 16) :
    (forwarded c field (payloadOf c) [octetAt c 248, octetAt c 249]).drop 24 = c.drop 24 := by
  rw [drop_payload_forwarded hc hf, drop_payload hc]

theorem hop_forwarded (hc : c.length = 256) :
    numAt (forwarded c field payload check) 5 = min 255 (numAt c 5 + 1) := by
  have hop : octetAt (forwarded c field payload check) 5 = octet (min 255 (numAt c 5 + 1)) := by
    rw [← octetAt_drop _ 2 3, drop_header_forwarded hc]
    rfl
  rw [numAt, hop, octet_toNat (by omega)]

theorem countOf_forwarded (hc : c.length = 256) : countOf (forwarded c field payload check) = countOf c := by
  rw [countOf, ← octetAt_drop _ 2 1, ← octetAt_drop _ 2 2, drop_header_forwarded hc]
  rfl

theorem controlOf_forwarded (hc : c.length = 256) (hf : field.length = 16) :
    controlOf (forwarded c field payload check) = field := by
  rw [controlOf, ← List.drop_drop (i := 5) (j := 2), drop_header_forwarded hc]
  exact List.take_left' hf

theorem payloadOf_forwarded (hc : c.length = 256) (hf : field.length = 16) (hp : payload.length = 224) :
    payloadOf (forwarded c field payload check) = payload :=
  payloadOf_cycleParts _ (take_mark_length hc) (raisedHeader_length hf) hp

theorem headerGood_forwarded (hc : c.length = 256) (hf : field.length = 16) :
    headerGood (forwarded c field payload check) = true := by
  rw [forwarded_eq_parts, headerGood_cycleParts _ (take_mark_length hc) (raisedHeader_length hf), beq_self_eq_true]

/-- The payload check that a node forwards is good exactly when the one that arrived was (R91). -/
theorem payloadGood_forwarded (hc : c.length = 256) (hf : field.length = 16) (hp : payload.length = 224) {wrote : Bool}
    (same : wrote = false → payload = payloadOf c) :
    payloadGood (forwarded c field payload (forwardedCheck c payload wrote)) = payloadGood c := by
  have good (a b : Byte) : payloadGood (forwarded c field payload [a, b]) = (crc16 payload == (a ++ b : BitVec 16)) :=
    payloadGood_cycleParts _ (take_mark_length hc) (raisedHeader_length hf) hp
  cases wrote with
  | false => rw [forwardedCheck, if_neg (by decide), good, same rfl, payloadGood]
  | true =>
    rw [forwardedCheck, if_pos rfl, octets16, good, octets16_append]
    cases payloadGood c with
    | true => exact beq_self_eq_true _
    | false =>
      have inverted (v : BitVec 16) : v ≠ ~~~v := fun same => by
        have := congrArg (BitVec.getLsbD · 0) same
        simp at this
      exact beq_eq_false_iff_ne.mpr (inverted _)

end forwarded

/-! ### The plan a node holds (R92, R93, R114, R118) -/

namespace NodeChip
variable {n : NodeChip} {e : Epoch} {turnover : Bool} {c f : List Byte} {p : Pos}

theorem adopt_of_none (h : n.pending = none) : n.adopt e turnover = n := by
  rw [adopt, h]

/-- A complete plan for another epoch stays exactly when the TURNOVER flag is set (R93). -/
theorem adopt_of_other {q : PendingPlan} (h : n.pending = some q) (complete : q.received = q.parts)
    (other : q.epoch ≠ e) : n.adopt e turnover = { n with pending := if turnover then some q else none } := by
  have whole : q.complete = true := beq_iff_eq.mpr complete
  rw [adopt, h]
  simp only [whole, other, if_true, if_false]
  cases turnover with
  | true => rw [← h]; rfl
  | false => rfl

/-- The test of the pending plan leaves the plan held, but for a complete one of the cycle's epoch (R93). -/
theorem adopt_cases (n : NodeChip) (e : Epoch) (turnover : Bool) :
    (n.adopt e turnover).taps = n.taps ∧ (n.adopt e turnover).held = n.held ∨
      ∃ q, n.pending = some q ∧ q.received = q.parts ∧ q.epoch = e ∧ (n.adopt e turnover).taps = q.taps := by
  cases h : n.pending with
  | none => exact .inl (by rw [adopt_of_none h]; exact ⟨rfl, rfl⟩)
  | some q =>
    by_cases complete : q.received = q.parts
    · by_cases own : q.epoch = e
      · refine .inr ⟨q, rfl, complete, own, ?_⟩
        have whole : q.complete = true := beq_iff_eq.mpr complete
        rw [adopt, h]
        simp only [whole, own, if_true]
      · exact .inl (by rw [adopt_of_other h complete own]; exact ⟨rfl, rfl⟩)
    · have part : q.complete = false := beq_eq_false_iff_ne.mpr complete
      refine .inl ?_
      rw [adopt, h]
      simp only [part, Bool.false_eq_true, if_false, and_self]

/-- An addressed message changes neither the taps nor the epoch held, and its reply is a control field (R92, R114). -/
theorem answer_frame (n : NodeChip) (p : Pos) (hf : f.length = 16) :
    (n.answer p f).1.taps = n.taps ∧ (n.answer p f).1.held = n.held ∧ (n.answer p f).2.length = 16 := by
  have reply (kind s : Byte) (body : List Byte) : (replyField kind p s body).length = 16 := by
    simp [replyField, padTo_length]
  unfold answer
  split_ifs
  · exact ⟨rfl, rfl, reply ..⟩
  · exact ⟨rfl, rfl, reply ..⟩
  · exact ⟨rfl, rfl, reply ..⟩
  · exact ⟨rfl, rfl, hf⟩

theorem control_number (h : octetAt f 0 = 0x01) : n.control f =
    (n.number (numAt f 3) ((octetAt f 4).extractLsb' 0 4), f.set 3 (octet (min 255 (numAt f 3 + 1)))) := by
  rw [control, if_pos h]

theorem control_quiet (h : octetAt f 0 = 0x02) : n.control f = (n.quiet, f) := by
  rw [control, h, if_neg (by decide), if_pos rfl]

/-- A field of kind NONE does nothing, whatever its other octets (R186, R190). -/
theorem control_none (h : octetAt f 0 = 0) : n.control f = (n, f) := by
  unfold control answer
  rw [h]
  simp only [BitVec.reduceEq, if_false, ite_self]
  split <;> rfl

/-- The control field acted on leaves the plan held or clears its taps, and a control field goes on (R95, R114,
R118). -/
theorem control_frame (n : NodeChip) (hf : f.length = 16) :
    ((n.control f).1.taps = n.taps ∧ (n.control f).1.held = n.held ∨ (n.control f).1.taps = []) ∧
      (n.control f).2.length = 16 := by
  by_cases number : octetAt f 0 = 0x01
  · rw [control_number number]
    refine ⟨?_, by rw [List.length_set, hf]⟩
    unfold NodeChip.number
    cases h : n.held with
    | none => exact .inr rfl
    | some e => exact .inl ⟨rfl, rfl⟩
  by_cases quiet : octetAt f 0 = 0x02
  · rw [control_quiet quiet]
    exact ⟨.inr rfl, hf⟩
  rw [control, if_neg number, if_neg quiet]
  split
  · next p _ =>
    split
    · obtain ⟨taps, held, length⟩ := n.answer_frame p hf
      exact ⟨.inl ⟨taps, held⟩, length⟩
    · exact ⟨.inl ⟨rfl, rfl⟩, hf⟩
  · exact ⟨.inl ⟨rfl, rfl⟩, hf⟩

/-! ### The taps (R91) -/

theorem writes_of_no_taps (h : n.taps = []) : n.writes c = [] := by
  rw [writes, tapsOn, h, List.filter_nil, ite_self]

theorem writes_of_other (h : n.held ≠ some (epochOf c)) : n.writes c = [] := if_neg h

/-- The taps applied are WRITE taps that the node holds. -/
theorem of_mem_writes {t : Tap} (h : t ∈ n.writes c) : t ∈ n.taps ∧ t.role = .write := by
  unfold writes at h
  split at h
  · simp only [tapsOn, List.mem_filter, Bool.and_eq_true, beq_iff_eq] at h
    exact ⟨h.1, h.2.2⟩
  · cases h

theorem write_of_no_writes (h : n.writes c = []) : n.write c = (n, payloadOf c) := by
  rw [write, h, List.foldl_nil]

theorem write_of_one {t : Tap} (h : n.writes c = [t]) : (n.write c).2 =
    overwrite (payloadOf c) t.offset ((n.outputs.get t.stream).slot (epochTag (n.held.getD 0)) t.length) := by
  rw [write, h, List.foldl_cons, List.foldl_nil]

end NodeChip

/-- A slot is as long as its tap (R91; log 39). -/
theorem NodeOutput.slot_length (o : NodeOutput) (tag : BitVec 2) {length : Nat} (h : 1 ≤ length) :
    (o.slot tag length).length = length := by
  rw [slot, List.length_cons, payload, padTo_length]; omega

theorem overwrite_length {l b : List Byte} {offset : Nat} (h : offset + b.length ≤ l.length) :
    (overwrite l offset b).length = l.length := by
  simp only [overwrite, List.length_append, List.length_take, List.length_drop]; omega

/-- Slots written within the payload area leave its length. -/
theorem NodeChip.write_length {n : NodeChip} {c : List Byte} (hc : c.length = 256)
    (within : ∀ t ∈ n.writes c, 2 ≤ t.length ∧ t.offset + t.length ≤ 224) : (n.write c).2.length = 224 := by
  unfold write
  refine List.foldlRecOn (motive := fun x : NodeChip × List Byte => x.2.length = 224) _ _
    (payloadOf_length hc) fun x hx t ht => ?_
  obtain ⟨two, fits⟩ := within t ht
  exact (overwrite_length (by rw [NodeOutput.slot_length _ _ (by omega), hx]; exact fits)).trans hx

/-! ### A cycle passes (R90, R94) -/

namespace NodeChip
variable {n : NodeChip} {c : List Byte}

/-- The node once it has tested its pending plan and acted on the control field of a good hub cycle (R93, R114). -/
def controlled (n : NodeChip) (c : List Byte) : NodeChip × List Byte :=
  (n.marked.adopt (epochOf c) (turnoverOf c)).control (controlOf c)

theorem pass_bad (header : headerGood c = false) : n.pass c = (n.marked, c) := by
  rw [pass, header]; rfl

theorem pass_beacon (header : headerGood c = true) (beacon : isBeacon c = true) : n.pass c =
    (n.marked, forwarded c (controlOf c) (payloadOf c) [octetAt c 248, octetAt c 249]) := by
  rw [pass, if_pos header, if_pos beacon]

theorem pass_hub (header : headerGood c = true) (hub : isBeacon c = false) : n.pass c =
    (((n.controlled c).1.write c).1, forwarded c (n.controlled c).2 ((n.controlled c).1.write c).2
      (forwardedCheck c ((n.controlled c).1.write c).2 (!((n.controlled c).1.writes c).isEmpty))) := by
  rw [pass, if_pos header, if_neg (by rw [hub]; decide)]
  rfl

theorem pass_unwritten (header : headerGood c = true) (hub : isBeacon c = false)
    (unwritten : (n.controlled c).1.writes c = []) : n.pass c =
      ((n.controlled c).1, forwarded c (n.controlled c).2 (payloadOf c) [octetAt c 248, octetAt c 249]) := by
  rw [pass_hub header hub, write_of_no_writes unwritten, unwritten]
  rfl

theorem controlled_field_length (hc : c.length = 256) : (n.controlled c).2.length = 16 :=
  (control_frame _ (controlOf_length hc)).2

/-- Neither the epoch held nor a complete pending plan is the cycle's: nothing is written (R91, R93). -/
theorem writes_of_neither (hc : c.length = 256) (held : n.held ≠ some (epochOf c))
    (pending : ∀ q, n.pending = some q → q.received = q.parts → q.epoch ≠ epochOf c) :
    (n.controlled c).1.writes c = [] := by
  obtain ⟨-, same⟩ | ⟨q, hq, complete, own, -⟩ := n.marked.adopt_cases (epochOf c) (turnoverOf c)
  · obtain ⟨⟨-, kept⟩ | cleared, -⟩ :=
      (n.marked.adopt (epochOf c) (turnoverOf c)).control_frame (controlOf_length hc)
    · exact writes_of_other (by rw [controlled, kept, same]; exact held)
    · exact writes_of_no_taps cleared
  · exact absurd own (pending q hq complete)

/-- The taps held once the control field is acted on were held or pending before (R93). -/
theorem mem_taps_of_controlled (hc : c.length = 256) {t : Tap} (h : t ∈ (n.controlled c).1.taps) :
    t ∈ n.taps ∨ ∃ q, n.pending = some q ∧ t ∈ q.taps := by
  obtain ⟨⟨kept, -⟩ | cleared, -⟩ :=
    (n.marked.adopt (epochOf c) (turnoverOf c)).control_frame (controlOf_length hc)
  · rw [controlled, kept] at h
    obtain ⟨taps, -⟩ | ⟨q, hq, -, -, taps⟩ := n.marked.adopt_cases (epochOf c) (turnoverOf c)
    · rw [taps] at h; exact .inl h
    · rw [taps] at h; exact .inr ⟨q, hq, h⟩
  · rw [controlled, cleared] at h; cases h

/-- With a field of kind NONE the node is as its pending plan's test leaves it (R93). -/
theorem controlled_of_none (idle : octetAt c 7 = 0) :
    n.controlled c = (n.marked.adopt (epochOf c) (turnoverOf c), controlOf c) :=
  control_none ((octetAt_controlOf c (by decide)).trans idle)

/-- The one WRITE tap of the page replaces its own octets (R91). -/
theorem payloadOf_pass_of_one {t : Tap} (hc : c.length = 256) (header : headerGood c = true) (hub : isBeacon c = false)
    (idle : octetAt c 7 = 0) (held : n.held = some (epochOf c)) (pending : n.pending = none)
    (taps : (n.taps.filter fun u => u.page == cyclePage c && u.role == .write) = [t]) (two : 2 ≤ t.length)
    (fits : t.offset + t.length ≤ 224) :
    payloadOf (n.pass c).2 = (payloadOf c).take t.offset ++
      (n.outputs.get t.stream).slot (epochTag (epochOf c)) t.length ++ (payloadOf c).drop (t.offset + t.length) := by
  have controlled : n.controlled c = (n.marked, controlOf c) :=
    (controlled_of_none idle).trans (by rw [adopt_of_none (n := n.marked) pending])
  have writes : n.marked.writes c = [t] := (if_pos held).trans taps
  have tag : epochTag (n.marked.held.getD 0) = epochTag (epochOf c) := by
    rw [show n.marked.held = _ from held]; rfl
  have length : (n.marked.write c).2.length = 224 := write_length hc fun u hu => by
    rw [writes, List.mem_singleton] at hu
    rw [hu]; exact ⟨two, fits⟩
  rw [pass_hub header hub, controlled, payloadOf_forwarded hc (controlOf_length hc) length, write_of_one writes, tag,
    overwrite, NodeOutput.slot_length _ _ (by omega)]
  rfl

/-- Neither check changes between good and bad, when the WRITE taps lie within the payload area (R90, R91). -/
theorem checks_pass (hc : c.length = 256)
    (within : ∀ t : Tap, (t ∈ n.taps ∨ ∃ q, n.pending = some q ∧ t ∈ q.taps) → t.role = .write →
      2 ≤ t.length ∧ t.offset + t.length ≤ 224) :
    payloadGood (n.pass c).2 = payloadGood c ∧ headerGood (n.pass c).2 = headerGood c := by
  cases header : headerGood c with
  | false => rw [pass_bad header]; exact ⟨rfl, header⟩
  | true =>
    cases hub : isBeacon c with
    | true =>
      rw [pass_beacon header hub]
      exact ⟨payloadGood_forwarded (wrote := false) hc (controlOf_length hc) (payloadOf_length hc) fun _ => rfl,
        headerGood_forwarded hc (controlOf_length hc)⟩
    | false =>
      have length := write_length (n := (n.controlled c).1) hc fun t ht =>
        within t (mem_taps_of_controlled hc (of_mem_writes ht).1) (of_mem_writes ht).2
      rw [pass_hub header hub]
      refine ⟨payloadGood_forwarded hc (controlled_field_length hc) length fun unwritten => ?_,
        headerGood_forwarded hc (controlled_field_length hc)⟩
      rw [write_of_no_writes (by simpa using unwritten)]

end NodeChip

/-- Settles O60: each kind of cycle in its turn; what is not written goes on as it arrived, and one tap replaces its own
octets. -/
theorem nodeWritesOnlyItsEpoch : Obligations.NodeWritesOnlyItsEpoch := by
  intro n c hc
  have field := NodeChip.controlled_field_length (n := n) hc
  refine ⟨fun bad => by rw [NodeChip.pass_bad bad]; exact ⟨rfl, rfl⟩, fun header beacon => ?_, fun header hub => ?_,
    NodeChip.checks_pass hc⟩
  · rw [NodeChip.pass_beacon header beacon]
    exact ⟨drop_payload_unwritten hc (controlOf_length hc), controlOf_forwarded hc (controlOf_length hc), rfl,
      hop_forwarded hc⟩
  · have unwritten (h : (n.controlled c).1.writes c = []) : (n.pass c).2.drop 24 = c.drop 24 := by
      rw [NodeChip.pass_unwritten header hub h]
      exact drop_payload_unwritten hc field
    have hop : numAt (n.pass c).2 5 = min 255 (numAt c 5 + 1) := by
      rw [NodeChip.pass_hub header hub, hop_forwarded hc]
    have count : countOf (n.pass c).2 = countOf c := by
      rw [NodeChip.pass_hub header hub, countOf_forwarded hc]
    have control : controlOf (n.pass c).2 = (n.controlled c).2 := by
      rw [NodeChip.pass_hub header hub, controlOf_forwarded hc field]
    refine ⟨hop, count, fun held pending => unwritten (NodeChip.writes_of_neither hc held pending),
      fun quiet => unwritten ?_, fun idle => ⟨?_, fun held pending => ?_, fun q held pending complete other => ?_,
        fun t held pending taps two fits =>
          NodeChip.payloadOf_pass_of_one hc header hub idle held pending taps two fits⟩⟩
    · rw [NodeChip.controlled, NodeChip.control_quiet ((octetAt_controlOf c (by decide)).trans quiet)]
      exact NodeChip.writes_of_no_taps rfl
    · rw [control, NodeChip.controlled_of_none idle]
    · rw [NodeChip.pass_unwritten header hub
        (NodeChip.writes_of_neither hc held fun q hq => absurd (pending.symm.trans hq) nofun),
        NodeChip.controlled_of_none idle]
      exact NodeChip.adopt_of_none pending
    · have unheld : ∀ q', n.pending = some q' → q'.received = q'.parts → q'.epoch ≠ epochOf c := fun q' hq _ => by
        rw [Option.some.inj (hq.symm.trans pending)]; exact other
      rw [NodeChip.pass_unwritten header hub (NodeChip.writes_of_neither hc held unheld),
        NodeChip.controlled_of_none idle]
      exact NodeChip.adopt_of_other pending complete other

end Sys2Proof.Machine
end

section
/-! SUPPORT. The records of one return, one after another, and a DRAIN between two of them (R152 to R157). -/

namespace Sys2Proof.Machine

/-! ### A head record drained whole (R157) -/

theorem Record.octets_length (x : Record) : x.octets.length = x.size := by
  simp [Record.octets, Record.size, octets16]; omega

namespace HostPort

/-- The octets of a record clocked out, whatever comes in: the last one removes the record (R157). -/
theorem clockOctets_drain (block : HostPort → List Byte) {out l : List Byte} (h : HostPort) (begun : out ≠ [])
    (hl : l.length = out.length) :
    l.foldl (clockOctet block) { h with txn := some (Txn.start .drain out true) } = { h with
      txn := some (Txn.start .drain [] false), delivery := h.delivery.tail, hdo := h.hdo ++ spiBits out } := by
  induction out generalizing h l with
  | nil => exact absurd rfl begun
  | cons o out ih =>
    obtain ⟨b, l, rfl⟩ := List.exists_cons_of_length_eq_add_one hl
    cases out with
    | nil =>
      obtain rfl : l = [] := by simpa using hl
      simp [clockOctet, Txn.outgoing, Txn.drainNext, Txn.start, endOctet, Txn.sent, Txn.completes]
    | cons o' out =>
      have first : ({ h with txn := some (Txn.start .drain (o :: o' :: out) true) } : HostPort).clockOctet block b =
          { h with txn := some (Txn.start .drain (o' :: out) true), hdo := h.hdo ++ octetBits o } := rfl
      rw [List.foldl_cons, first, ih { h with hdo := h.hdo ++ octetBits o } (List.cons_ne_nil _ _) (by simpa using hl)]
      simp

/-- A port at the end of a DRAIN's header (R157, R162, R163). -/
theorem clockOctet_header_drain (block : HostPort → List Byte) {h : HostPort} (idle : h.txn = none) (running : Bool)
    {header : Byte} (kind : headerKind header = .drain) : (h.select running).clockOctet block header = { h with
      txn := some (Txn.start .drain [] false), hdo := octetBits (h.statusOctet running) } := by
  simp [select, idle, clockOctet, Txn.header, Txn.outgoing, endOctet, kind, serve]

/-- The first clock after the header chooses the head record (R157). -/
theorem clockOctet_chooses (block : HostPort → List Byte) {h : HostPort} {x : Record} {queue : List Record}
    (hq : h.delivery = x :: queue) (b : Byte) :
    ({ h with txn := some (Txn.start .drain [] false) } : HostPort).clockOctet block b =
      ({ h with txn := some (Txn.start .drain x.octets true) } : HostPort).clockOctet block b := by
  unfold clockOctet
  dsimp only
  rw [hq]
  rfl

/-- The head record drained whole, from the assertion of select on (R157). -/
theorem clockOctets_head (block : HostPort → List Byte) {h : HostPort} {x : Record} {queue : List Record}
    (idle : h.txn = none) (hq : h.delivery = x :: queue) (running : Bool) {header : Byte}
    (kind : headerKind header = .drain) {l : List Byte} (hl : l.length = x.size) :
    l.foldl (clockOctet block) ((h.select running).clockOctet block header) = { h with
      txn := some (Txn.start .drain [] false), delivery := queue
      hdo := spiBits (h.statusOctet running :: x.octets) } := by
  have drained := clockOctets_drain block { h with hdo := octetBits (h.statusOctet running) } (out := x.octets)
    (List.cons_ne_nil _ _) (hl.trans x.octets_length.symm)
  obtain ⟨b, l, rfl⟩ := List.exists_cons_of_length_pos (l := l) (by rw [hl, Record.size]; omega)
  rw [List.foldl_cons] at drained ⊢
  rw [clockOctet_header_drain block idle running kind,
    clockOctet_chooses block (h := { h with hdo := octetBits (h.statusOctet running) }) hq, drained, spiBits_cons]
  simp [hq]

end HostPort

namespace State

/-- The release of a DRAIN at a port with no lapse due loads its lease (R162, R171). -/
theorem release_drain {s : State} {q : Port} {t : Txn} (ht : (s.port q).txn = some t) (kind : t.kind = some .drain)
    (due : (s.port q).lapseDue = false) :
    (s.release q).port q = ({ s.port q with txn := none } : HostPort).touchLease := by
  have port (v : State) (f : HostPort → HostPort) : (v.modPort q f).port q = f (v.port q) := Table.get_modify_self _ _ _
  unfold release
  rw [ht]
  simp only [kind, port, due, finish, HostPort.finish, reduceCtorEq, Bool.false_eq_true, Option.some.injEq, if_false]

/-- A whole DRAIN of the head record removes it, and the record goes out after the status octet (R157, R163, R171). -/
theorem transact_drains_head {s : State} {q : Port} {x : Record} {queue : List Record} (ready : s.listens q)
    (hq : (s.port q).delivery = x :: queue) (low : BitVec 4) {l : List Byte} (hl : l.length = x.size) :
    (s.transact .drain q (txnBits 3 low l) true).port q =
      ({ s.port q with delivery := queue } : HostPort).served ((s.port q).statusOctet s.running) x.octets := by
  obtain ⟨-, -, due, idle⟩ := id ready
  have kind : headerKind ((3 : BitVec 4) ++ low : Byte) = .drain := by revert low; decide
  have clocked : (s.clocked q (txnBits 3 low l)).port q = { s.port q with
      txn := some (Txn.start .drain [] false), delivery := queue
      hdo := spiBits ((s.port q).statusOctet s.running :: x.octets) } := by
    rw [clocked_txnBits idle, HostPort.clockOctets_head _ idle hq _ kind hl]
  rw [transact_of_listens ready _ _ _ (.inr (by rw [clocked]; rfl)), if_pos rfl,
    release_drain (t := Txn.start .drain [] false) (by rw [clocked]) rfl (by rw [clocked]; exact due), clocked,
    HostPort.served, idle]

end State

/-! ### The records of a return (R152, R153) -/

theorem Ring.afterGood_state (g : Ring) (rest : List CycleRecord) (odd : Bool) :
    (g.afterGood rest odd).state = g.state := by
  unfold afterGood; split <;> simp_all

theorem Ring.afterDamaged_state (g : Ring) (rest : List CycleRecord) (odd : Option Bool) :
    (g.afterDamaged rest odd).state = g.state := by
  unfold afterDamaged; split <;> simp_all

/-- The record of a slot of a good return (R153). -/
theorem recordOf_of_good (r : CycleRecord) (octets : List Byte) (pl : Placement) :
    let status := octetAt octets (24 + pl.offset)
    let bare (v : Validity) : Record :=
      { stream := pl.stream, validity := v, sequence := 0, cycle := r.count, gap := 0, payload := [] }
    recordOf r (.good octets) pl = some (if slotTag status = epochTag r.epoch then
        { bare (slotValidity status) with
          sequence := slotSequence status
          payload :=
            if slotValidity status = .void then [] else (octets.drop (25 + pl.offset)).take (pl.length - 1) }
      else bare .foreign) := by
  unfold recordOf
  dsimp only
  split <;> rfl

/-- What a placement gives a listed port, once its record is known (R152, R155, R156, R185). -/
theorem HostPort.receive_of_record {r : CycleRecord} {cls : ReturnClass} {pl : Placement} {x : Record}
    (hx : recordOf r cls pl = some x) (stream : x.stream = pl.stream) (h : HostPort) : h.receive r cls pl =
      if h.attached = false then h
      else if occupancy h.delivery + x.size ≤ 4096 then
        let h' : HostPort :=
          { h with
            delivery := h.delivery ++ [{ x with gap := h.gaps.get pl.stream }]
            gaps := h.gaps.set pl.stream 0 }
        if h'.events.threshold ≤ occupancy h'.delivery then h'.raise .delivery else h'
      else
        ({ h with gaps := h.gaps.set pl.stream (min 255 (h.gaps.get pl.stream + 1)) } : HostPort).raise .overflow := by
  unfold receive
  rw [hx]
  cases h.attached with
  | false => rfl
  | true =>
    rw [if_pos rfl, if_neg (by decide), ← stream]
    simp only [deliver, raiseIf, decide_eq_true_eq]
    rfl

/-- The placements that give a port a record, of those that a page's return gives (R152). -/
theorem placements_of_port (page : List Placement) {lines : DeliveryTable}
    (once : ∀ id, (listedPorts lines id).Nodup) (q : Port) :
    ((page.flatMap fun pl => (listedPorts lines pl.stream).map fun p => (p, pl)).filter fun x => x.1 == q).map
      Prod.snd = page.filter fun pl => (listedPorts lines pl.stream).contains q := by
  induction page with
  | nil => rfl
  | cons pl page ih =>
    have own : (((listedPorts lines pl.stream).map fun p => (p, pl)).filter fun x => x.1 == q).map Prod.snd =
        if q ∈ listedPorts lines pl.stream then [pl] else [] := by
      have single : (listedPorts lines pl.stream).filter (· == q) =
          if q ∈ listedPorts lines pl.stream then [q] else [] := by
        rw [List.filter_beq, (once pl.stream).count]
        split <;> rfl
      rw [List.filter_map, List.map_map]
      refine (congrArg (List.map _) single).trans ?_
      split <;> rfl
    rw [List.flatMap_cons, List.filter_append, List.map_append, ih, own, List.filter_cons]
    by_cases h : q ∈ listedPorts lines pl.stream <;> simp [h]

namespace State

/-- A return gives a port one record for each placement that lists it, in the order of the page (R152). -/
theorem extract_port {s : State} {r : CycleRecord} {plan : Plan} {lines : DeliveryTable}
    (hplan : s.planFor r.epoch = some (plan, lines)) (once : ∀ id, (listedPorts lines id).Nodup) (cls : ReturnClass)
    (q : Port) : (s.extract r cls []).port q =
      ((plan.layouts.get (pageOf r.count)).filter fun pl => (listedPorts lines pl.stream).contains q).foldl
        (fun h pl => h.receive r cls pl) (s.port q) := by
  rw [← placements_of_port _ once q, extract, hplan]
  dsimp only
  rw [handle_nil]
  exact Table.get_foldl_modify (fun (pl : Placement) (h : HostPort) => h.receive r cls pl) _ s.ports q

/-- A page of two placements for one port, whose head record is drained whole between the two records (R152, R156; log
29). -/
theorem extract_drained_port {s : State} {r : CycleRecord} {plan : Plan} {lines : DeliveryTable} {a b : Placement}
    {q : Port} (hplan : s.planFor r.epoch = some (plan, lines)) (hpage : plan.layouts.get (pageOf r.count) = [a, b])
    (ha : listedPorts lines a.stream = [q]) (hb : listedPorts lines b.stream = [q]) (cls : ReturnClass)
    (d : DrainPart) : (s.extract r cls [[], [d]]).port q =
      (((s.modPort q fun h => h.receive r cls a).transact .drain d.port d.bits d.release).port q).receive r cls b := by
  have deliveries : deliveriesOf plan lines r.count = [(q, a), (q, b)] := by
    rw [deliveriesOf, hpage, List.flatMap_cons, List.flatMap_cons, ha, hb]
    rfl
  rw [extract, hplan]
  dsimp only
  rw [deliveries]
  exact Table.get_modify_self _ _ _

/-- A record made at a port leaves it ready for a transaction, and its head record in front (R156). -/
theorem receive_listens {s : State} {q : Port} (ready : s.listens q) (r : CycleRecord) (cls : ReturnClass)
    (pl : Placement) : (s.modPort q fun h => h.receive r cls pl).listens q := by
  have port : (s.modPort q fun h => h.receive r cls pl).port q = (s.port q).receive r cls pl :=
    Table.get_modify_self _ _ _
  obtain ⟨high, free, due, idle⟩ := ready
  refine ⟨high, ?_, ?_, ?_⟩ <;> rw [port]
  · rw [HostPort.receive_heldOver, free]
  · rw [HostPort.receive_lapseDue, due]
  · rw [HostPort.receive_txn, idle]

end State

/-- What is recorded comes after what is queued (R156). -/
theorem HostPort.receive_head {h : HostPort} {x : Record} {queue : List Record} (hq : h.delivery = x :: queue)
    (r : CycleRecord) (cls : ReturnClass) (pl : Placement) :
    (h.receive r cls pl).delivery = x :: (h.receive r cls pl).delivery.tail := by
  unfold receive deliver
  split_ifs
  · split
    · split_ifs <;> simp [hq]
    · simp [hq]
  · simp [hq]

namespace State

/-- A return that leaves the ring in its state and concludes no attempt, whatever is drained meanwhile: what the Slot
Mover makes of it (R96, R97, R152). -/
theorem exec_returns_extracted {s : State} {r : CycleRecord} {rest : List CycleRecord} {octets : List Byte} {cell : Nat}
    {g : Ring} {c : Instr} (hsent : s.ring.sent = r :: rest) (hears : s.ring.hears r cell) (hn : s.decidesNothing r)
    (h : s.returnsGood r rest (fun d => d = cell) octets c g ∨ s.returnsDamaged r rest (fun d => d = cell) octets c g) :
    c = .returnEvaluation cell ⟨octets, []⟩ ∧ ∃ g' : Ring, g'.state = s.ring.state ∧ ∀ drains,
      exec (.returnEvaluation cell ⟨octets, drains⟩) s = .next
        (((({ s with ring := g' } : State).extract r (classify r octets) drains).discardRetired).advanceWork) := by
  obtain ⟨l, followed⟩ : ∃ l, s.follow r octets (cell - r.start) =
      { s with ring := { s.ring with latency := l } } := by
    obtain same | ⟨-, -, -, moved⟩ := s.follow_cases r octets (cell - r.start)
    · exact ⟨_, same⟩
    · exact ⟨_, moved⟩
  obtain ⟨⟨_, rfl, rfl⟩, good, shape, heal, -⟩ | ⟨⟨_, rfl, rfl⟩, damages, shape, -⟩ := h
  · refine ⟨rfl, Ring.afterGood { s.ring with latency := l } rest (decide (numAt octets 5 ≠ s.nodes.count.val)),
      Ring.afterGood_state _ _ _, fun drains => ?_⟩
    rw [exec_returned hsent hears good.not_late, followed, good.classify, evaluate_eq,
      engine_good (s := { s with ring := { s.ring with latency := l } }) (rest := rest) hsent good shape heal,
      channel_of_decidesNothing]
    exact hn
  · refine ⟨rfl, Ring.afterDamaged { s.ring with latency := l } rest
      (if headerGood octets = true ∧ countOf octets = r.count then some (decide (numAt octets 5 ≠ s.nodes.count.val))
      else none), Ring.afterDamaged_state _ _ _, fun drains => ?_⟩
    rw [exec_returned hsent hears damages.not_late, followed, damages.classify, evaluate_eq,
      engine_damaged (s := { s with ring := { s.ring with latency := l } }) (rest := rest) hsent damages shape,
      channel_of_decidesNothing]
    exact hn

end State

/-- Settles O50: the record of each placement by the class of the return, and the drained head between two of them. -/
theorem returnsMakeRecords : Obligations.ReturnsMakeRecords := by
  intro s r rest plan lines octets cell g c q hoff hsent hears returned hn hplan once bare record made
  have recorded (pl : Placement) : recordOf r (classify r octets) pl = some (record pl) := by
    obtain ⟨-, good, -⟩ | ⟨-, damages, -⟩ := returned
    · obtain ⟨header, payload, -, count⟩ := id good
      rw [good.classify, recordOf_of_good]
      exact congrArg some (if_pos ⟨header, count, payload⟩).symm
    · rw [damages.classify]
      refine congrArg some (if_neg fun ⟨header, count, payload⟩ => ?_).symm
      exact damages.1 ⟨header, payload, (damages.2 header).1, count⟩
  have stream (pl : Placement) : (record pl).stream = pl.stream := by
    show (ite _ _ _ : Record).stream = _
    split_ifs <;> rfl
  have makes (h : HostPort) (pl : Placement) : h.receive r (classify r octets) pl = made h pl :=
    HostPort.receive_of_record (recorded pl) (stream pl) h
  obtain ⟨rfl, g', ringState, hexec⟩ := State.exec_returns_extracted hsent hears hn returned
  have hplan' : ({ s with ring := g' } : State).planFor r.epoch = some (plan, lines) := hplan
  refine ⟨⟨_, hexec [], ?_⟩, fun a b head queue low hpage ha hb ready hq => ⟨_, hexec _, ?_⟩⟩
  · refine (State.extract_port hplan' once _ q).trans ?_
    simp only [makes]
    rfl
  · have port : (({ s with ring := g' } : State).modPort q fun h => h.receive r (classify r octets) a).port q =
        (s.port q).receive r (classify r octets) a := Table.get_modify_self _ _ _
    have running : (({ s with ring := g' } : State).modPort q fun h => h.receive r (classify r octets) a).running =
        s.running := congrArg (· == RingState.running) ringState
    have drained := State.transact_drains_head (State.receive_listens (s := { s with ring := g' }) ready r
      (classify r octets) a) ((congrArg _ port).trans (HostPort.receive_head hq ..)) low
      (l := zeros head.size) (List.length_replicate ..)
    refine (State.extract_drained_port hplan' hpage ha hb _ _).trans ?_
    dsimp only
    rw [drained, port, running, makes, makes]

end Sys2Proof.Machine
end

section
/-! SUPPORT. A whole transaction at a port with no lapse due (R162, R171), and the records and markers that a DRAIN sends
(R157). -/

namespace Sys2Proof.Machine

/-! ### The completion of a transaction -/

/-- The last command of a transaction: the bits clocked, and the effect of its completion (R162). A STATUS, which reads
a free value, is left out. -/
theorem State.transact_completes {s : State} {p : Port} {k : TxnKind} {bits : List Bool} {h : HostPort} {t : Txn}
    (high : s.nresetLow = false) (free : (s.port p).heldOver = false) (due : (s.port p).lapseDue = false)
    (clocks : (s.clocked p bits).port p = h) (txn : h.txn = some t) (kind : t.kind = some k) (reads : k ≠ .status)
    (undue : h.lapseDue = false) :
    s.transact k p bits true = (s.modPort p fun _ => { h with txn := none }).finish p t := by
  have named : h.kind = some k := by rw [HostPort.kind, txn, Option.bind_some, kind]
  have clocked : s.clocked p bits = s.modPort p fun _ => h := by
    have clocks : bits.foldl (HostPort.clockBit (s.blockOf p)) ((s.port p).select s.running) = h :=
      (Table.get_set_self ..).symm.trans clocks
    have unread : ¬ ((s.port p).kind = none ∧ h.kind = some .status) :=
      fun status => reads (Option.some.inj (named.symm.trans status.2))
    unfold State.clocked
    rw [clocks]
    dsimp only
    rw [if_neg unread]
    rfl
  unfold transact
  rw [high, free, if_neg (by decide)]
  dsimp only
  rw [grantLapse_of_not_due due, clocked, modPort_port_self, if_pos (.inr named), if_pos rfl]
  unfold release
  simp only [modPort_port_self, modPort_modPort, txn, kind, undue, reduceCtorEq, Bool.false_eq_true, if_false]

/-! ### What a DRAIN sends (R157) -/

/-- A DRAIN with no bits of an octet clocked in, and the octets it then has to send. -/
def Txn.draining (taken out : List Byte) (removes : Bool) : Txn :=
  { kind := some .drain, bits := [], taken := taken, sending := out, removes := removes }

namespace HostPort

section drain

variable (block : HostPort → List Byte) {h : HostPort} {x : Record} {queue : List Record}

/-- One octet of an item goes out; the last octet of a record removes it (R157). -/
theorem clockOctet_draining (h : HostPort) (taken : List Byte) (o : Byte) (out : List Byte) (removes : Bool) (b : Byte) :
    ({ h with txn := some (Txn.draining taken (o :: out) removes) } : HostPort).clockOctet block b = { h with
      txn := some (Txn.draining taken out (removes && out ≠ []))
      delivery := if removes && out == [] then h.delivery.tail else h.delivery
      hdo := h.hdo ++ octetBits o } := by
  simp [clockOctet, Txn.outgoing, Txn.drainNext, Txn.draining, endOctet, Txn.sent, Txn.completes]

/-- Between two items the next octet is the first of the record then at the head (R157). -/
theorem clockOctet_draining_record (hq : h.delivery = x :: queue) (taken : List Byte) (removes : Bool) (b : Byte) :
    ({ h with txn := some (Txn.draining taken [] removes) } : HostPort).clockOctet block b =
      ({ h with txn := some (Txn.draining taken x.octets true) } : HostPort).clockOctet block b := by
  unfold clockOctet
  dsimp only
  rw [hq]
  rfl

/-- Between two items with the queue empty the next octet is the first of a marker (R157). -/
theorem clockOctet_draining_marker (hq : h.delivery = []) (taken : List Byte) (removes : Bool) (b : Byte) :
    ({ h with txn := some (Txn.draining taken [] removes) } : HostPort).clockOctet block b =
      ({ h with txn := some (Txn.draining taken emptyMarker false) } : HostPort).clockOctet block b := by
  unfold clockOctet
  dsimp only
  rw [hq]
  rfl

/-- Fewer octets than an item has left: its next octets go out, and nothing is removed (R157). -/
theorem clockOctets_within {taken out : List Byte} {removes : Bool} {l : List Byte} (short : l.length < out.length)
    (h : HostPort) :
    l.foldl (clockOctet block) { h with txn := some (Txn.draining taken out removes) } = { h with
      txn := some (Txn.draining taken (out.drop l.length) removes), hdo := h.hdo ++ spiBits (out.take l.length) } := by
  induction l generalizing h out with
  | nil => simp
  | cons b l ih =>
    obtain ⟨o, out, rfl⟩ := List.exists_cons_of_length_pos (Nat.zero_lt_of_lt short)
    have short : l.length < out.length := Nat.lt_of_succ_lt_succ short
    have more : out ≠ [] := List.ne_nil_of_length_pos (Nat.zero_lt_of_lt short)
    have sent := clockOctet_draining block h taken o out removes b
    rw [decide_eq_true more, Bool.and_true, beq_eq_false_iff_ne.mpr more, Bool.and_false] at sent
    rw [List.foldl_cons, sent]
    refine (ih short { h with hdo := h.hdo ++ octetBits o }).trans ?_
    simp

/-- As many octets as the record at the head has: it goes out and is removed (R157). -/
theorem clockOctets_record (hq : h.delivery = x :: queue) (taken : List Byte) (removes : Bool) {l : List Byte}
    (whole : l.length = x.size) :
    l.foldl (clockOctet block) { h with txn := some (Txn.draining taken [] removes) } = { h with
      txn := some (Txn.draining taken [] false), delivery := queue, hdo := h.hdo ++ spiBits x.octets } := by
  have size : l.length = x.octets.length := whole.trans x.octets_length.symm
  obtain ⟨b, l, rfl⟩ := List.exists_cons_of_length_pos (l := l) (by rw [size]; exact Nat.succ_pos _)
  rw [List.foldl_cons, clockOctet_draining_record block hq, ← List.foldl_cons]
  obtain ⟨first, last, parts⟩ := List.eq_nil_or_concat' (b :: l) |>.resolve_left (List.cons_ne_nil _ _)
  obtain ⟨out, o, sent⟩ := List.eq_nil_or_concat' x.octets |>.resolve_left (List.cons_ne_nil _ _)
  rw [parts, sent, List.length_append, List.length_append, List.length_singleton, List.length_singleton] at size
  have size : first.length = out.length := Nat.succ.inj size
  rw [parts, List.foldl_append, sent, clockOctets_within block (by simp [size]), size, List.drop_left,
    List.take_left, List.foldl_cons, List.foldl_nil]
  refine (clockOctet_draining block { h with hdo := h.hdo ++ spiBits out } taken o [] true last).trans ?_
  simp [hq]

/-- As many octets as the first records have: they go out one after another and are removed (R157). -/
theorem clockOctets_records (taken : List Byte) (l : List Record) : ∀ (h : HostPort) (removes : Bool)
    (octets : List Byte), h.delivery = l ++ queue → octets.length = occupancy l →
    ∃ removes', octets.foldl (clockOctet block) { h with txn := some (Txn.draining taken [] removes) } = { h with
      txn := some (Txn.draining taken [] removes'), delivery := queue
      hdo := h.hdo ++ spiBits (l.flatMap Record.octets) } := by
  induction l with
  | nil =>
    intro h removes octets hq whole
    obtain rfl : octets = [] := List.eq_nil_of_length_eq_zero whole
    exact ⟨removes, by rw [← show h.delivery = queue from hq]; simp⟩
  | cons x l ih =>
    intro h removes octets hq whole
    have whole : octets.length = x.size + occupancy l := whole
    obtain ⟨removes', rest⟩ := ih { h with delivery := l ++ queue, hdo := h.hdo ++ spiBits x.octets } false
      (octets.drop x.size) rfl (by rw [List.length_drop]; omega)
    refine ⟨removes', ?_⟩
    rw [← List.take_append_drop x.size octets, List.foldl_append, clockOctets_record block hq taken removes
      (by rw [List.length_take]; omega)]
    refine rest.trans ?_
    simp

/-- Fewer octets than the record at the head has: its first octets go out, and it stays (R157). -/
theorem clockOctets_cut (hq : h.delivery = x :: queue) (taken : List Byte) (removes : Bool) {l : List Byte}
    (short : l.length < x.size) :
    ∃ t, t.kind = some .drain ∧
      l.foldl (clockOctet block) { h with txn := some (Txn.draining taken [] removes) } = { h with
        txn := some t, hdo := h.hdo ++ spiBits (x.octets.take l.length) } := by
  cases l with
  | nil => exact ⟨Txn.draining taken [] removes, rfl, by simp⟩
  | cons b l =>
    rw [List.foldl_cons, clockOctet_draining_record block hq, ← List.foldl_cons]
    exact ⟨_, rfl, clockOctets_within block (by rwa [x.octets_length]) h⟩

/-- With the queue empty, the rest of an item goes out and then markers, however many octets are clocked (R157). -/
theorem clockOctets_markers (taken l : List Byte) : ∀ (h : HostPort) (out : List Byte) (removes : Bool) (n : Nat),
    h.delivery = [] → l.length ≤ n →
    ∃ t, t.kind = some .drain ∧
      l.foldl (clockOctet block) { h with txn := some (Txn.draining taken out removes) } = { h with
        txn := some t
        hdo := h.hdo ++ spiBits ((out ++ (List.replicate n emptyMarker).flatten).take l.length) } := by
  induction l with
  | nil => exact fun h out removes n _ _ => ⟨Txn.draining taken out removes, rfl, by simp⟩
  | cons b l ih =>
    intro h out removes n hq enough
    have octet (o : Byte) (out : List Byte) (removes : Bool) (n : Nat) (enough : l.length ≤ n) :
        ∃ t, t.kind = some .drain ∧
          (b :: l).foldl (clockOctet block) { h with txn := some (Txn.draining taken (o :: out) removes) } = { h with
            txn := some t
            hdo := h.hdo ++ spiBits ((o :: out ++ (List.replicate n emptyMarker).flatten).take (b :: l).length) } := by
      obtain ⟨t, kind, rest⟩ := ih { h with hdo := h.hdo ++ octetBits o } out (removes && out ≠ []) n hq enough
      refine ⟨t, kind, ?_⟩
      rw [List.foldl_cons, clockOctet_draining, hq, List.tail_nil, ite_self, ← hq]
      refine rest.trans ?_
      simp
    cases out with
    | cons o out => exact octet o out removes n (Nat.le_of_succ_le enough)
    | nil =>
      obtain ⟨n, rfl⟩ := Nat.exists_eq_add_one_of_ne_zero (Nat.ne_zero_of_lt enough)
      rw [List.foldl_cons, clockOctet_draining_marker block hq, ← List.foldl_cons]
      exact octet 0xFF (zeros 5) false n (Nat.le_of_succ_le_succ enough)

end drain

end HostPort

namespace State

/-- A DRAIN completed at a port with no lapse due leaves what its clocks left, and loads the lease (R157, R171). -/
theorem transact_drain_completes {s : State} {p : Port} {bits : List Bool} {h : HostPort} {t : Txn}
    (high : s.nresetLow = false) (free : (s.port p).heldOver = false) (due : (s.port p).lapseDue = false)
    (clocks : (s.clocked p bits).port p = h) (txn : h.txn = some t) (kind : t.kind = some .drain)
    (undue : h.lapseDue = false) :
    s.transact .drain p bits true = s.modPort p fun _ => ({ h with txn := none } : HostPort).touchLease := by
  rw [transact_completes high free due clocks txn kind nofun undue]
  unfold finish HostPort.finish
  simp only [kind, reduceCtorEq, Option.some.injEq, if_false, modPort_modPort]

/-- A whole DRAIN at a port that listens: the records that its octets pass go out whole and are removed, and the octets
past them send what they send at the queue that is left (R157, R162, R163). -/
theorem transact_drain {s : State} {p : Port} (ready : s.listens p) (low : BitVec 4) {octets out : List Byte}
    {l queue : List Record} (hq : (s.port p).delivery = l ++ queue) (passed : occupancy l ≤ octets.length)
    (rest : ∀ (h : HostPort) (removes : Bool), h.delivery = queue →
      ∃ t, t.kind = some .drain ∧
        (octets.drop (occupancy l)).foldl (HostPort.clockOctet (s.blockOf p))
          { h with txn := some (Txn.draining [] [] removes) } =
            { h with txn := some t, hdo := h.hdo ++ spiBits out }) :
    s.transact .drain p (txnBits 3 low octets) true = s.modPort p fun h =>
      ({ h with delivery := queue } : HostPort).served (h.statusOctet s.running) (l.flatMap Record.octets ++ out) := by
  obtain ⟨high, free, due, idle⟩ := ready
  have header : headerKind ((3 : BitVec 4) ++ low : Byte) = .drain := by revert low; decide
  obtain ⟨removes, records⟩ := HostPort.clockOctets_records (s.blockOf p) [] l
    { s.port p with hdo := octetBits ((s.port p).statusOctet s.running) } false (octets.take (occupancy l)) hq
    (List.length_take_of_le passed)
  obtain ⟨t, kind, sent⟩ := rest { s.port p with
    delivery := queue
    hdo := octetBits ((s.port p).statusOctet s.running) ++ spiBits (l.flatMap Record.octets) } removes rfl
  have clocks : (s.clocked p (txnBits 3 low octets)).port p =
      { s.port p with
        txn := some t, delivery := queue
        hdo := octetBits ((s.port p).statusOctet s.running) ++ spiBits (l.flatMap Record.octets) ++ spiBits out } := by
    rw [clocked_txnBits idle, HostPort.clockOctet_header_drain _ idle _ header, ← sent, ← records, ← List.foldl_append,
      List.take_append_drop]
    rfl
  rw [transact_drain_completes high free due clocks rfl kind due]
  refine modPort_congr ?_
  rw [HostPort.served, ← idle, spiBits_cons, spiBits_append, ← List.append_assoc]

/-- A DRAIN in progress between two items, its last command the octets of the record then at the head (R157). -/
theorem transact_drain_goes_on {s : State} {p : Port} {octets taken : List Byte} {removes : Bool} {x : Record}
    {queue : List Record} (high : s.nresetLow = false) (free : (s.port p).heldOver = false)
    (due : (s.port p).lapseDue = false) (between : (s.port p).txn = some (Txn.draining taken [] removes))
    (hq : (s.port p).delivery = x :: queue) (whole : octets.length = x.size) :
    s.transact .drain p (spiBits octets) true = s.modPort p fun h =>
      ({ h with delivery := queue, txn := none, hdo := h.hdo ++ spiBits x.octets } : HostPort).touchLease := by
  have clocks : (s.clocked p (spiBits octets)).port p = { s.port p with
      txn := some (Txn.draining taken [] false), delivery := queue, hdo := (s.port p).hdo ++ spiBits x.octets } := by
    refine (Table.get_set_self ..).trans ?_
    rw [HostPort.select, between]
    dsimp only
    rw [HostPort.clockBits_spiBits _ _ _ _ between rfl, ← HostPort.clockOctets_record _ hq taken removes whole, ← between]
  exact (transact_drain_completes high free due clocks rfl rfl due).trans (modPort_congr rfl)

end State

/-- Settles O13: the records that the clocking passes go out whole (`State.transact_drain`), and then the first octets of
the next record, or markers. -/
theorem drainSendsRecord : Obligations.DrainSendsRecord := by
  refine ⟨fun p low octets s ready => ⟨fun l x rest hq passed short => ?_, fun passed => ?_⟩,
    fun p octets s t x rest high free due txn kind bits sending hq whole => ?_⟩
  · have left : (octets.drop (occupancy l)).length = octets.length - occupancy l := List.length_drop
    refine congrArg Host.Outcome.next (State.transact_drain ready low hq passed fun h removes head => ?_)
    rw [← left]
    exact HostPort.clockOctets_cut _ head [] removes (by omega)
  · have left : (octets.drop (occupancy (s.port p).delivery)).length =
        octets.length - occupancy (s.port p).delivery := List.length_drop
    refine congrArg Host.Outcome.next ((State.transact_drain ready low (List.append_nil _).symm passed
      fun h removes empty => ?_).trans (State.modPort_congr rfl))
    rw [← left]
    exact HostPort.clockOctets_markers _ [] _ h [] removes octets.length empty (by omega)
  · obtain ⟨_, _, taken, _, removes⟩ := t
    cases kind
    cases bits
    cases sending
    exact congrArg Host.Outcome.next (State.transact_drain_goes_on high free due txn hq whole)

end Sys2Proof.Machine
end

section
/-! SUPPORT. A whole POST, and its three outcomes (R145). -/

namespace Sys2Proof.Machine

/-! ### The octets of a POST -/

/-- A POST in progress, with the octets taken so far. -/
def Txn.posting (taken : List Byte) : Txn :=
  { kind := some .post, bits := [], taken := taken, sending := [], removes := false }

/-- The octets after a POST's header are taken in while octets of 0 go out (R145, R162). -/
theorem HostPort.clockOctets_post (block : HostPort → List Byte) (octets : List Byte) :
    ∀ (h : HostPort) (taken : List Byte),
      octets.foldl (HostPort.clockOctet block) { h with txn := some (Txn.posting taken) } =
        { h with
          txn := some (Txn.posting (taken ++ octets)), hdo := h.hdo ++ spiBits (zeros octets.length) } := by
  induction octets with
  | nil => intro h taken; simp [zeros]
  | cons b octets ih =>
    intro h taken
    refine (ih { h with hdo := h.hdo ++ octetBits 0 } (taken ++ [b])).trans ?_
    simp [zeros, List.replicate_succ]

/-- A port at the end of a POST's header (R162, R163). -/
theorem HostPort.clockOctet_header_post (block : HostPort → List Byte) {h : HostPort} (idle : h.txn = none)
    (running : Bool) {header : Byte} (kind : headerKind header = .post) :
    (h.select running).clockOctet block header = { h with
      txn := some (Txn.posting []), hdo := octetBits (h.statusOctet running) } := by
  simp [select, idle, clockOctet, Txn.header, Txn.outgoing, endOctet, kind, serve, Txn.start, Txn.posting]

/-! ### The outcomes of a POST (R145) -/

/-- A stream id read from a number is the id of that number. -/
theorem streamOf_eq_some {n : Nat} {id : StreamId} : streamOf n = some id ↔ n = id.val := by
  unfold streamOf
  split
  · simp [Fin.ext_iff]
  · simp
    omega

/-- A raise does not look at what went out on HDO. -/
theorem HostPort.raiseIf_with_hdo (h : HostPort) (c : Bool) (k : EventKind) (bits : List Bool) :
    ({ h with hdo := bits } : HostPort).raiseIf c k = { h.raiseIf c k with hdo := bits } := by
  unfold raiseIf raise
  repeat' split
  all_goals simp_all [attached]

namespace State

variable {s : State} {p : Port} {taken : List Byte}

/-- The judgement of a post reads of its port only whether it is ATTACHED (R145). -/
theorem judgePost_modPort {f : HostPort → HostPort} (h : (f (s.port p)).attached = (s.port p).attached)
    (taken : List Byte) : (s.modPort p f).judgePost p taken = s.judgePost p taken := by
  unfold judgePost
  rw [modPort_port_self, h]
  rfl

theorem judgePost_of_not_attached (h : (s.port p).attached = false) (taken : List Byte) :
    s.judgePost p taken = .dropped := by
  simp [judgePost, h]

/-- A post of an ATTACHED port is accepted for just the stream that R145 lets it fill. -/
theorem judgePost_eq_accepted {id : StreamId} (ha : (s.port p).attached = true) :
    s.judgePost p taken = .accepted id ↔
      ∃ d sample, taken = octet id.val :: sample ∧ (s.entry id).inForce = some d ∧ d.source = .host ∧ d.owner = p ∧
        sample.length = d.payload := by
  constructor
  · intro judged
    unfold judgePost at judged
    rw [if_pos ha] at judged
    repeat' split at judged
    all_goals cases judged
    next b sample _ _ d fits hid hd =>
      obtain ⟨host, owns, size⟩ := fits
      exact ⟨d, sample, by rw [← streamOf_eq_some.mp hid, octet_toNat_self], hd, host, owns, size⟩
  · rintro ⟨d, sample, rfl, hd, host, owns, size⟩
    simp [judgePost, ha, hd, host, owns, size]

theorem judgePost_ne_dropped (ha : (s.port p).attached = true) (taken : List Byte) :
    s.judgePost p taken ≠ .dropped := by
  unfold judgePost
  rw [if_pos ha]
  repeat' split
  all_goals nofun

theorem takePost_of_dropped (h : s.judgePost p taken = .dropped) : s.takePost p taken = s := by
  unfold takePost
  rw [h]
  exact modPort_of_same (f := fun h => h.raiseIf false .protocol) rfl

theorem takePost_of_rejected (h : s.judgePost p taken = .rejected) :
    s.takePost p taken = s.modPort p fun h => h.raise .protocol := by
  unfold takePost
  rw [h]
  rfl

theorem takePost_of_accepted {id : StreamId} (h : s.judgePost p taken = .accepted id) :
    s.takePost p taken = { s with mover := { s.mover with posts := s.mover.posts.set id (.fresh taken.tail) } } := by
  unfold takePost
  rw [h]
  exact modPort_of_same (s := { s with mover := { s.mover with posts := s.mover.posts.set id (.fresh taken.tail) } })
    (f := fun h => h.raiseIf false .protocol) rfl

/-- A post is taken alike whatever went out on HDO. -/
theorem takePost_modPort_hdo (s : State) (p : Port) (taken : List Byte) (bits : List Bool) :
    (s.modPort p fun h => { h with hdo := bits }).takePost p taken =
      (s.takePost p taken).modPort p fun h => { h with hdo := bits } := by
  unfold takePost
  rw [judgePost_modPort rfl]
  simp only [modPort, Table.modify_modify, HostPort.raiseIf_with_hdo]

/-- A whole POST at a port that listens: its octets judged at the completion, and the lease loaded (R145, R162, R171). -/
theorem transact_post (ready : s.listens p) (low : BitVec 4) (octets : List Byte) :
    s.transact .post p (txnBits 4 low octets) true = (s.takePost p octets).modPort p fun h =>
      h.served ((s.port p).statusOctet s.running) (zeros octets.length) := by
  obtain ⟨high, free, due, idle⟩ := ready
  have header : headerKind ((4 : BitVec 4) ++ low : Byte) = .post := by revert low; decide
  have clocks : (s.clocked p (txnBits 4 low octets)).port p = { s.port p with
      txn := some (Txn.posting octets)
      hdo := octetBits ((s.port p).statusOctet s.running) ++ spiBits (zeros octets.length) } := by
    rw [clocked_txnBits idle, HostPort.clockOctet_header_post _ idle _ header]
    exact HostPort.clockOctets_post _ octets { s.port p with hdo := octetBits ((s.port p).statusOctet s.running) } []
  rw [transact_completes high free due clocks rfl rfl nofun due]
  have clocked : (s.modPort p fun _ => { s.port p with
      txn := none, hdo := octetBits ((s.port p).statusOctet s.running) ++ spiBits (zeros octets.length) }) =
        s.modPort p fun h =>
          { h with hdo := octetBits ((s.port p).statusOctet s.running) ++ spiBits (zeros octets.length) } :=
    modPort_congr (by rw [← idle])
  rw [clocked]
  unfold finish
  rw [if_pos (show (Txn.posting octets).kind = some .post from rfl), show (Txn.posting octets).taken = octets from rfl,
    takePost_modPort_hdo, modPort_modPort]
  rfl

end State

/-- Settles O14: the three outcomes of `State.judgePost`, each with what `State.takePost` makes of it. -/
theorem postFillsBuffer : Obligations.PostFillsBuffer := by
  intro p low octets s ready posts
  refine ⟨fun detached => ?_, fun id d sample ha ho hd host owns size => ?_, fun ha other => ?_⟩
  · refine congrArg Host.Outcome.next ?_
    rw [State.transact_post ready, State.takePost_of_dropped (State.judgePost_of_not_attached detached _)]
    exact State.modPort_congr rfl
  · have accepted := (State.judgePost_eq_accepted ha).mpr ⟨d, sample, ho, hd, host, owns, size⟩
    refine congrArg Host.Outcome.next ?_
    rw [State.transact_post ready, State.takePost_of_accepted accepted, ho]
    rfl
  · have rejected : s.judgePost p octets = .rejected := by
      cases judged : s.judgePost p octets with
      | dropped => exact absurd judged (State.judgePost_ne_dropped ha _)
      | rejected => rfl
      | accepted id =>
        obtain ⟨d, sample, ho, hd, host, owns, size⟩ := (State.judgePost_eq_accepted ha).mp judged
        exact absurd size (other id d sample ho hd host owns)
    refine congrArg Host.Outcome.next ?_
    rw [State.transact_post ready, State.takePost_of_rejected rejected, State.modPort_modPort]
    exact State.modPort_congr rfl

end Sys2Proof.Machine
end

section
/-! SUPPORT. The resets, and what is left of a transaction that a reset has cut off (R174, R176). -/

namespace Sys2Proof.Machine

/-! ### The Device Reset -/

namespace State

/-- An item taken leaves every select as it was, so a reset finds the same transactions in progress (R39, R176). -/
theorem resetWith_beginItem (s : State) (p : Port) (f : List Byte) (cause : ResetCause) (straps : BitVec 2)
    (low : Bool) : (s.beginItem p f).resetWith cause straps low = s.resetWith cause straps low := by
  have select (q : Port) : ((s.beginItem p f).port q).heldOver = (s.port q).heldOver ∧
      ((s.beginItem p f).port q).txn = (s.port q).txn := by
    by_cases e : p = q
    · subst e; rw [beginItem_port_self]; exact ⟨rfl, rfl⟩
    · rw [beginItem_port_ne _ _ e]; exact ⟨rfl, rfl⟩
  simp [resetWith, select]

/-- A port after a reset (R161, R176). -/
theorem resetWith_port (s : State) (cause : ResetCause) (straps : BitVec 2) (low : Bool) (p : Port) :
    (s.resetWith cause straps low).port p =
      { HostPort.reset cause (straps.toNat == p.val) with heldOver := (s.port p).heldOver || (s.port p).txn.isSome } :=
  Table.get_tabulate _ p

end State

/-- A Device Reset taken from the ATTACHED authority port is carried out, and has no answer (R48, R176). -/
theorem exec_deviceReset_of_pick {s : State} {p : Port} {tag : Byte} (hp : s.pick = some (p, frameOf tag 0x35 []))
    (ha : (s.port p).attached = true) (auth : (s.port p).authority = true) (straps : BitVec 2) :
    exec (.deviceReset straps) s = .next (s.resetWith .command straps false) := by
  have acts : actDeviceReset straps p (frameOf tag 0x35 []) (s.beginItem p (frameOf tag 0x35 [])) =
      (s.resetWith .command straps false, none) := by
    unfold actDeviceReset
    rw [ringLevel_acts (by rw [State.beginItem_authority, auth]), State.resetWith_beginItem]
  have wellFormed : frameWellFormed .deviceReset (frameOf tag 0x35 []) = true := rfl
  refine congrArg Host.Outcome.next ?_
  rw [State.takeRequest_attached hp rfl (.inr ha), if_pos wellFormed]
  unfold State.runItem
  rw [acts]

/-- Settles O35: each reset is `State.resetWith` with its cause, the Device Reset by `exec_deviceReset_of_pick`. -/
theorem resetsClearThePart : Obligations.ResetsClearThePart :=
  fun _ straps => ⟨fun _ => rfl, rfl, rfl, fun _ _ hp ha auth => exec_deviceReset_of_pick hp ha auth straps⟩

/-! ### What is left of a transaction that a reset has cut off -/

/-- While a port takes no transaction, a command of it sends bits of 0, and its release ends the hold (R176; log
41). -/
theorem exec_command_of_void {s : State} {p : Port} (void : s.nresetLow = true ∨ (s.port p).heldOver = true)
    (k : TxnKind) (code : BitVec 4) (bits : List Bool) (release : Bool) :
    exec (k.command code p bits release) s = .next (s.modPort p fun h => h.clockVoid bits.length release) := by
  rw [exec_command]
  unfold State.transact
  rw [if_pos (by simpa using void)]

/-- The three resets with what each needs, as one: a reset with its own cause and level of NRESET. -/
theorem exec_reset {c : Instr} {straps : BitVec 2} {s t : State}
    (resets : (∃ low, c = .powerOnReset straps low) ∨ c = .pinReset straps ∨
      c = .deviceReset straps ∧ ∃ q tag, s.pick = some (q, frameOf tag 0x35 []) ∧
        (s.port q).attached = true ∧ (s.port q).authority = true)
    (next : exec c s = .next t) : ∃ cause low, t = s.resetWith cause straps low := by
  rcases resets with ⟨low, rfl⟩ | rfl | ⟨rfl, q, tag, hp, ha, auth⟩
  · cases next; exact ⟨_, _, rfl⟩
  · cases next; exact ⟨_, _, rfl⟩
  · rw [exec_deviceReset_of_pick hp ha auth] at next
    cases next; exact ⟨_, _, rfl⟩

/-- Settles O20: a port whose transaction a reset cut off is held over, and `exec_command_of_void` says what its
commands do. -/
theorem resetVoidsTransaction : Obligations.ResetVoidsTransaction := by
  intro k code p bits release out
  refine ⟨fun c straps s t resets busy next => ?_, fun s held => ?_, fun s low free => ?_⟩
  · obtain ⟨cause, low, rfl⟩ := exec_reset resets next
    have held : ((s.resetWith cause straps low).port p).heldOver = true := by
      rw [State.resetWith_port]
      simp [Option.isSome_iff_ne_none.mpr busy]
    have fresh : ((s.resetWith cause straps low).port p).hdo = [] := by rw [State.resetWith_port]; rfl
    rw [exec_command_of_void (.inr held)]
    refine congrArg Host.Outcome.next (State.modPort_congr ?_)
    rw [HostPort.clockVoid, if_pos held, fresh, List.nil_append]
  · rw [exec_command_of_void (.inr held)]
    refine congrArg Host.Outcome.next (State.modPort_congr ?_)
    rw [HostPort.clockVoid, if_pos held]
  · rw [exec_command_of_void (.inl low)]
    refine congrArg Host.Outcome.next (State.modPort_congr ?_)
    rw [HostPort.clockVoid, if_neg (by rw [free]; nofun), List.nil_append]

end Sys2Proof.Machine
end

section
/-! SUPPORT. A transaction clocked bit by bit: its header, the kind that the header names, what goes out with each
clock, and its release at a port that listens (R162, R163). -/

namespace Sys2Proof.Machine

/-- The status octet goes out within a header (R163). -/
@[simp] theorem Txn.outgoing_header (status : Byte) (bits : List Bool) (q : List Record) :
    ({ Txn.header status with bits := bits } : Txn).outgoing q = { Txn.header status with bits := bits } := rfl

namespace HostPort

/-! ### The end of an octet, and one clock -/

@[simp] theorem serve_hdo (h : HostPort) (k : TxnKind) (block : List Byte) : (h.serve k block).hdo = h.hdo := by
  unfold serve; repeat' split
  all_goals rfl
@[simp] theorem serve_heldOver (h : HostPort) (k : TxnKind) (block : List Byte) :
    (h.serve k block).heldOver = h.heldOver := by
  unfold serve; repeat' split
  all_goals rfl
@[simp] theorem serve_lapseDue (h : HostPort) (k : TxnKind) (block : List Byte) :
    (h.serve k block).lapseDue = h.lapseDue := by
  unfold serve; repeat' split
  all_goals rfl
@[simp] theorem serve_kind (h : HostPort) (k : TxnKind) (block : List Byte) : (h.serve k block).kind = some k := by
  unfold serve; repeat' split
  all_goals rfl

variable (block : HostPort → List Byte)

@[simp] theorem endOctet_hdo (h : HostPort) (t : Txn) (b : Byte) : (h.endOctet block t b).hdo = h.hdo := by
  unfold endOctet; repeat' split
  all_goals simp
@[simp] theorem endOctet_heldOver (h : HostPort) (t : Txn) (b : Byte) :
    (h.endOctet block t b).heldOver = h.heldOver := by
  unfold endOctet; repeat' split
  all_goals simp
@[simp] theorem endOctet_lapseDue (h : HostPort) (t : Txn) (b : Byte) :
    (h.endOctet block t b).lapseDue = h.lapseDue := by
  unfold endOctet; repeat' split
  all_goals simp

/-- The octet that ends is the header and names the kind, or the kind stays (R162). -/
@[simp] theorem endOctet_kind (h : HostPort) (t : Txn) (b : Byte) :
    (h.endOctet block t b).kind = some (t.kind.getD (headerKind b)) := by
  unfold endOctet
  split
  next e => simp [e]
  all_goals
    next e => simp [kind, Txn.sent, e]

/-- Once the kind is named, no octet's end reads the status block (R168). -/
theorem endOctet_block (block' : HostPort → List Byte) {h : HostPort} {t : Txn} (named : t.kind ≠ none) (b : Byte) :
    h.endOctet block t b = h.endOctet block' t b := by
  unfold endOctet
  split
  next e => exact absurd e named
  all_goals rfl

theorem kind_of_txn {h : HostPort} {t : Txn} (ht : h.txn = some t) : h.kind = t.kind := by simp [kind, ht]

/-- One clock of a transaction sends one bit, changes no mark of the port, keeps a kind that is named, and leaves the
transaction in progress (R162). -/
theorem clockBit_of_txn {h : HostPort} {t : Txn} (ht : h.txn = some t) (b : Bool) :
    (h.clockBit block b).txn.isSome = true ∧ (h.clockBit block b).hdo = h.hdo ++ [h.nextOut] ∧
      (h.clockBit block b).heldOver = h.heldOver ∧ (h.clockBit block b).lapseDue = h.lapseDue ∧
      (t.kind ≠ none → (h.clockBit block b).kind = t.kind) := by
  unfold clockBit nextOut
  rw [ht]
  dsimp only
  split
  · refine ⟨?_, by simp, by simp, by simp, fun named => ?_⟩
    · obtain ⟨x, hx, -⟩ := endOctet_txn _ block (t.outgoing h.delivery) _
      rw [hx]; rfl
    · obtain ⟨k, hk⟩ := Option.ne_none_iff_exists'.mp named
      simp [hk]
  · exact ⟨rfl, rfl, rfl, rfl, fun _ => t.outgoing_kind _⟩

/-- A port with no transaction in progress does not see the clock (R162). -/
theorem clockBit_of_none {h : HostPort} (ht : h.txn = none) (b : Bool) : h.clockBit block b = h := by
  simp [clockBit, ht]

@[simp] theorem clockBit_heldOver (h : HostPort) (b : Bool) : (h.clockBit block b).heldOver = h.heldOver := by
  cases ht : h.txn with
  | none => rw [clockBit_of_none block ht]
  | some t => obtain ⟨-, -, held, -, -⟩ := clockBit_of_txn block ht b; exact held

@[simp] theorem clockBit_lapseDue (h : HostPort) (b : Bool) : (h.clockBit block b).lapseDue = h.lapseDue := by
  cases ht : h.txn with
  | none => rw [clockBit_of_none block ht]
  | some t => obtain ⟨-, -, -, due, -⟩ := clockBit_of_txn block ht b; exact due

theorem clockBit_kind_of_named {h : HostPort} {k : TxnKind} (named : h.kind = some k) (b : Bool) :
    (h.clockBit block b).kind = some k := by
  cases ht : h.txn with
  | none => rw [clockBit_of_none block ht, named]
  | some t =>
    have kind := (kind_of_txn ht).symm.trans named
    obtain ⟨-, -, -, -, kept⟩ := clockBit_of_txn block ht b
    rw [kept (by rw [kind]; nofun), kind]

theorem clockBit_block_of_named (block' : HostPort → List Byte) {h : HostPort} {k : TxnKind} (named : h.kind = some k)
    (b : Bool) : h.clockBit block b = h.clockBit block' b := by
  unfold clockBit
  split
  · rfl
  next t ht =>
    have kind := (kind_of_txn ht).symm.trans named
    dsimp only
    split
    · exact endOctet_block block block' (by rw [Txn.outgoing_kind, kind]; nofun) _
    · rfl

/-! ### Many clocks -/

@[simp] theorem clockBits_heldOver (l : List Bool) (h : HostPort) :
    (l.foldl (clockBit block) h).heldOver = h.heldOver := by
  induction l generalizing h with
  | nil => rfl
  | cons b l ih => rw [List.foldl_cons, ih, clockBit_heldOver]

@[simp] theorem clockBits_lapseDue (l : List Bool) (h : HostPort) :
    (l.foldl (clockBit block) h).lapseDue = h.lapseDue := by
  induction l generalizing h with
  | nil => rfl
  | cons b l ih => rw [List.foldl_cons, ih, clockBit_lapseDue]

theorem clockBits_txn (l : List Bool) {h : HostPort} (busy : h.txn.isSome = true) :
    (l.foldl (clockBit block) h).txn.isSome = true := by
  induction l generalizing h with
  | nil => exact busy
  | cons b l ih =>
    obtain ⟨t, ht⟩ := Option.isSome_iff_exists.mp busy
    obtain ⟨still, -⟩ := clockBit_of_txn block ht b
    exact ih still

/-- A kind that is named stays to the end of the transaction (R162). -/
theorem clockBits_kind_of_named (l : List Bool) {h : HostPort} {k : TxnKind} (named : h.kind = some k) :
    (l.foldl (clockBit block) h).kind = some k := by
  induction l generalizing h with
  | nil => exact named
  | cons b l ih => exact ih (clockBit_kind_of_named block named b)

theorem clockBits_block_of_named (block' : HostPort → List Byte) (l : List Bool) {h : HostPort} {k : TxnKind}
    (named : h.kind = some k) : l.foldl (clockBit block) h = l.foldl (clockBit block') h := by
  induction l generalizing h with
  | nil => rfl
  | cons b l ih =>
    rw [List.foldl_cons, List.foldl_cons, ih (clockBit_kind_of_named block named b),
      clockBit_block_of_named block block' named]

/-! ### The header -/

/-- A port within a header: the status octet going out, and the bits of the header that came (R162, R163). -/
def inHeader (h : HostPort) (status : Byte) (bits : List Bool) : HostPort :=
  { h with txn := some { Txn.header status with bits := bits }, hdo := (octetBits status).take bits.length }

theorem select_of_idle {h : HostPort} (idle : h.txn = none) (running : Bool) :
    h.select running = h.inHeader (h.statusOctet running) [] := by
  unfold select
  rw [idle]
  rfl

theorem select_of_busy {h : HostPort} (busy : h.txn.isSome = true) (running : Bool) : h.select running = h := by
  obtain ⟨t, ht⟩ := Option.isSome_iff_exists.mp busy
  simp [select, ht]

/-- A port with the transaction and the HDO record of one within a header is within that header. -/
theorem eq_inHeader {g h : HostPort} {status : Byte} {bits : List Bool} (txn : g.txn = (h.inHeader status bits).txn)
    (hdo : g.hdo = (h.inHeader status bits).hdo) : g = g.inHeader status bits := by
  obtain ⟨_⟩ := g
  cases txn
  cases hdo
  rfl

/-- Fewer bits than a header has: they are held, and as many bits of the status octet have gone out (R162). -/
theorem clockBits_inHeader (h : HostPort) (status : Byte) {a l : List Bool} (short : a.length + l.length < 8) :
    l.foldl (clockBit block) (h.inHeader status a) = h.inHeader status (a ++ l) := by
  rcases eq_or_ne l [] with rfl | more
  · rw [List.append_nil, List.foldl_nil]
  · rw [clockBits_short block l (h.inHeader status a) _ rfl short more]
    unfold inHeader
    rw [Txn.outgoing_header, List.length_append, List.take_add]
    rfl

/-- The eighth bit of a header: the status octet has gone out, and the kind is named (R162, R163). -/
theorem clockBits_header (h : HostPort) (status : Byte) {a l : List Bool} (whole : a.length + l.length = 8)
    (more : l ≠ []) :
    (l.foldl (clockBit block) (h.inHeader status a)).hdo = octetBits status ∧
      (l.foldl (clockBit block) (h.inHeader status a)).kind = some (headerKind (octetOf (a ++ l))) := by
  obtain ⟨m, b, rfl⟩ := (List.eq_nil_or_concat' l).resolve_left more
  rw [List.length_append, List.length_singleton] at whole
  have seven : (a ++ m).length = 7 := by rw [List.length_append]; omega
  rw [List.foldl_append, clockBits_inHeader block h status (by omega), List.foldl_cons, List.foldl_nil]
  refine ⟨?_, ?_⟩
  · obtain ⟨-, sent, -⟩ := clockBit_of_txn block (h := h.inHeader status (a ++ m)) rfl b
    rw [sent]
    show (octetBits status).take (a ++ m).length ++ [(octetBits status).getD (a ++ m).length false] = octetBits status
    rw [seven]
    rfl
  · unfold clockBit
    dsimp only [inHeader]
    rw [Txn.outgoing_header, if_pos seven, endOctet_kind, List.append_assoc]
    rfl

/-- The kind after the bits clocked from the assertion of select on: none before the header's end, and then the one it
names (R162). -/
theorem clockBits_kind {h : HostPort} (idle : h.txn = none) (running : Bool) (l : List Bool) :
    (l.foldl (clockBit block) (h.select running)).kind =
      if l.length < 8 then none else some (headerKind (octetOf (l.take 8))) := by
  rw [select_of_idle idle]
  split
  · next short => rw [clockBits_inHeader block h _ (by simpa using short)]; rfl
  · next long =>
    have eight : (l.take 8).length = 8 := List.length_take_of_le (Nat.le_of_not_lt long)
    obtain ⟨-, kind⟩ := clockBits_header block h (h.statusOctet running) (a := []) (l := l.take 8)
      (by rw [eight]; rfl) (List.ne_nil_of_length_pos (by rw [eight]; decide))
    conv_lhs => rw [← List.take_append_drop 8 l, List.foldl_append]
    exact clockBits_kind_of_named block _ kind

end HostPort

namespace State

variable {s : State} {p : Port} {k : TxnKind} {bits : List Bool}

/-! ### Bits clocked at a port of the part -/

theorem clocked_port (s : State) (p : Port) (bits : List Bool) : (s.clocked p bits).port p =
    bits.foldl (HostPort.clockBit (s.blockOf p)) ((s.port p).select s.running) := Table.get_set_self ..

/-- The state after bits clocked that name no STATUS: its port alone has changed. -/
theorem clocked_of_other {h : HostPort} (clocks : (s.clocked p bits).port p = h) (other : h.kind ≠ some .status) :
    s.clocked p bits = s.modPort p fun _ => h := by
  subst clocks
  rw [clocked_port] at other ⊢
  unfold clocked
  dsimp only
  rw [if_neg fun status => other status.2]
  rfl

/-- The state after bits clocked that name a STATUS: the model's counter has gone up too (log 4). -/
theorem clocked_of_status {h : HostPort} (idle : (s.port p).txn = none) (clocks : (s.clocked p bits).port p = h)
    (status : h.kind = some .status) :
    s.clocked p bits = ({ s with freeCount := s.freeCount + 1 } : State).modPort p fun _ => h := by
  subst clocks
  rw [clocked_port] at status ⊢
  unfold clocked
  dsimp only
  rw [if_pos ⟨by rw [HostPort.kind, idle]; rfl, status⟩]
  rfl

theorem clocked_busy (s : State) (p : Port) (bits : List Bool) :
    ((s.clocked p bits).port p).txn.isSome = true := by
  rw [clocked_port]
  refine HostPort.clockBits_txn _ _ ?_
  unfold HostPort.select
  split
  · rfl
  next ht => rw [ht]; rfl

@[simp] theorem clocked_heldOver (s : State) (p : Port) (bits : List Bool) :
    ((s.clocked p bits).port p).heldOver = (s.port p).heldOver := by
  rw [clocked_port, HostPort.clockBits_heldOver]
  unfold HostPort.select
  split <;> rfl

@[simp] theorem clocked_lapseDue (s : State) (p : Port) (bits : List Bool) :
    ((s.clocked p bits).port p).lapseDue = (s.port p).lapseDue := by
  rw [clocked_port, HostPort.clockBits_lapseDue]
  unfold HostPort.select
  split <;> rfl

theorem clocked_kind (idle : (s.port p).txn = none) (bits : List Bool) : ((s.clocked p bits).port p).kind =
    if bits.length < 8 then none else some (headerKind (octetOf (bits.take 8))) := by
  rw [clocked_port, HostPort.clockBits_kind _ idle]

/-- Bits that name a kind, or are too few to name one, are served as that kind (R162). -/
theorem clocked_kind_of_bitsOf (idle : (s.port p).txn = none) (named : bitsOf k bits) :
    ((s.clocked p bits).port p).kind = none ∨ ((s.clocked p bits).port p).kind = some k := by
  rw [clocked_kind idle]
  split
  · exact .inl rfl
  · next long => exact .inr (by rw [named (Nat.le_of_not_lt long)])

/-- A transaction command at a port that listens, its bits those of its kind (R162). -/
theorem transact_of_bitsOf (ready : s.listens p) (named : bitsOf k bits) (release : Bool) :
    s.transact k p bits release = if release then (s.clocked p bits).release p else s.clocked p bits := by
  obtain ⟨-, -, -, idle⟩ := id ready
  exact transact_of_listens ready k bits release (clocked_kind_of_bitsOf idle named)

/-- A transaction command that holds select is its bits clocked (R162). -/
theorem transact_held (ready : s.listens p) (named : bitsOf k bits) : s.transact k p bits false = s.clocked p bits :=
  transact_of_bitsOf ready named false

/-! ### The release -/

/-- A select released before its header's end leaves no transaction behind (R162). -/
theorem release_of_unnamed (unnamed : (s.port p).kind = none) :
    s.release p = s.modPort p fun h => { h with txn := none } := by
  unfold release
  split
  next idle => exact (modPort_of_same (by rw [← idle])).symm
  next t ht => exact if_pos ((HostPort.kind_of_txn ht).symm.trans unnamed)

/-- The release of a transaction with no lapse due completes it (R162). -/
theorem release_of_named {t : Txn} (txn : (s.port p).txn = some t) (named : t.kind ≠ none)
    (due : (s.port p).lapseDue = false) :
    s.release p = (s.modPort p fun h => { h with txn := none }).finish p t := by
  have undue : ((s.modPort p fun h => { h with txn := none }).port p).lapseDue = false := by
    rw [modPort_port_self, due]
  unfold release
  rw [txn]
  dsimp only
  rw [if_neg named, undue, if_neg (by decide)]

/-- A whole transaction at a port that listens: its bits clocked, and then the effect of its completion (R162). -/
theorem transact_whole {t : Txn} (ready : s.listens p) (named : bitsOf k bits)
    (txn : ((s.clocked p bits).port p).txn = some t) (kind : t.kind = some k) : s.transact k p bits true =
      ((s.clocked p bits).modPort p fun h => { h with txn := none }).finish p t := by
  obtain ⟨-, -, due, -⟩ := id ready
  rw [transact_of_bitsOf ready named, if_pos rfl]
  exact release_of_named txn (by rw [kind]; nofun) (by rw [clocked_lapseDue, due])

end State

/-- The bits of a whole transaction are those of the kind that its header code names (R162, R191). -/
theorem bitsOf_txnBits {k : TxnKind} {code low : BitVec 4} (named : headerKind (code ++ low : Byte) = k)
    (octets : List Byte) : bitsOf k (txnBits code low octets) :=
  fun _ => (headerKind_txnBits code low octets).trans named

end Sys2Proof.Machine
end

section
/-! SUPPORT. A whole REQUEST, FETCH and STATUS, a whole transaction of unknown kind, and a select period too short for a
header (R162, R163, R164, R167, R168). -/

namespace Sys2Proof.Machine

namespace HostPort

/-! ### The completion of a transaction -/

/-- A raise does not look at what went out on HDO. -/
theorem raise_with_hdo (h : HostPort) (k : EventKind) (bits : List Bool) :
    ({ h with hdo := bits } : HostPort).raise k = { h.raise k with hdo := bits } :=
  h.raiseIf_with_hdo true k bits

theorem takeFrame_with_hdo (h : HostPort) (taken : List Byte) (bits : List Bool) :
    ({ h with hdo := bits } : HostPort).takeFrame taken = { h.takeFrame taken with hdo := bits } := by
  unfold takeFrame
  split
  · rfl
  · exact raise_with_hdo h _ bits

theorem takeEventset_with_hdo (h : HostPort) (taken : List Byte) (bits : List Bool) :
    ({ h with hdo := bits } : HostPort).takeEventset taken = { h.takeEventset taken with hdo := bits } := by
  unfold takeEventset
  rw [show ({ h with hdo := bits } : HostPort).attached = h.attached from rfl]
  repeat' split
  · rfl
  · exact raise_with_hdo h _ bits
  · rfl

theorem touchLease_with_hdo (h : HostPort) (bits : List Bool) :
    ({ h with hdo := bits } : HostPort).touchLease = { h.touchLease with hdo := bits } := by
  unfold touchLease
  rw [show ({ h with hdo := bits } : HostPort).attached = h.attached from rfl]
  split <;> rfl

/-- The completion of a transaction does not look at what went out on HDO (R162). -/
theorem finish_with_hdo (h : HostPort) (t : Txn) (bits : List Bool) :
    ({ h with hdo := bits } : HostPort).finish t = { h.finish t with hdo := bits } := by
  unfold finish
  split
  · rw [takeFrame_with_hdo, touchLease_with_hdo]
  · rw [takeEventset_with_hdo, touchLease_with_hdo]
  · rw [raise_with_hdo, touchLease_with_hdo]
  all_goals exact touchLease_with_hdo h bits

/-- The completion of a FETCH or a STATUS loads the lease and does nothing else (R171). -/
theorem finish_of_sends {t : Txn} (sends : t.kind = some .fetch ∨ t.kind = some .status) (h : HostPort) :
    h.finish t = h.touchLease := by
  unfold finish
  rcases sends with kind | kind <;> rw [kind]

/-- What a complete transaction sent is its record of HDO alone (R162). -/
theorem served_eq (h : HostPort) (status : Byte) (out : List Byte) :
    h.served status out = { h.touchLease with hdo := spiBits (status :: out) } := touchLease_with_hdo h _

/-- A frame is queued when its length octet names as many octets as came and there is room, and else discarded with
PROTOCOL (R164). -/
theorem takeFrame_eq (h : HostPort) (f : List Byte) : h.takeFrame f =
    if (3 ≤ f.length ∧ f.length ≤ 32 ∧ f.head? = some (octet f.length)) ∧ h.requests.length < 4 then
      { h with requests := h.requests ++ [f] }
    else h.raise .protocol := by
  unfold takeFrame
  simp only [Bool.and_eq_true, decide_eq_true_iff, framed_iff]
  rfl

end HostPort

/-- The completion of a transaction that is no POST is an effect on its port alone (R162). -/
theorem State.finish_of_ne_post {t : Txn} (other : t.kind ≠ some .post) (s : State) (p : Port) :
    s.finish p t = s.modPort p fun h => h.finish t := by
  unfold finish
  rw [if_neg other]

/-- A whole transaction at a port that listens, by the port that its clocks leave (R162). A POST, which reaches the post
buffers, and a STATUS, which reads a free value, are left out. -/
theorem State.transact_serves {s : State} {p : Port} {k : TxnKind} {bits sent : List Bool} {h : HostPort} {t : Txn}
    (ready : s.listens p) (clocks : (s.clocked p bits).port p = { h with txn := some t, hdo := sent })
    (idle : h.txn = none) (undue : h.lapseDue = false) (kind : t.kind = some k) (own : k ≠ .post)
    (reads : k ≠ .status) : s.transact k p bits true = s.modPort p fun _ => { h.finish t with hdo := sent } := by
  obtain ⟨high, free, due, -⟩ := ready
  rw [transact_completes high free due clocks rfl kind reads undue,
    finish_of_ne_post fun post => own (Option.some.inj (kind.symm.trans post)), modPort_modPort,
    ← HostPort.finish_with_hdo, ← idle]

/-! ### REQUEST -/

/-- A whole REQUEST at a port that listens (R162, R164, R171). -/
theorem State.transact_request {s : State} {p : Port} (ready : s.listens p) (low : BitVec 4) (f : List Byte) :
    s.transact .request p (txnBits 1 low f) true = s.modPort p fun h =>
      (h.takeFrame f).served (h.statusOctet s.running) (zeros f.length) := by
  obtain ⟨-, -, due, idle⟩ := id ready
  have clocks := congrArg (fun u => u.port p) (clocked_request idle low f)
  rw [transact_serves (h := s.port p) (t := Txn.requesting f) ready (clocks.trans (modPort_port_self ..)) idle due rfl
    nofun nofun]
  exact modPort_congr (HostPort.served_eq ..).symm

/-- Settles O11: a whole REQUEST is judged by `HostPort.takeFrame` at its completion. -/
theorem requestQueuesFrame : Obligations.RequestQueuesFrame := by
  intro p low f s ready
  refine congrArg Host.Outcome.next ((State.transact_request ready low f).trans (State.modPort_congr ?_))
  rw [HostPort.takeFrame_eq]

/-! ### What a transaction sends after its header -/

/-- One more octet clocked sends the first octet of the result, or 0 where there is none (R162). -/
theorem clockedOut_succ (out : List Byte) (n : Nat) :
    clockedOut out (n + 1) = out.headD 0 :: clockedOut out.tail n := by
  cases out with
  | nil => simp [clockedOut, zeros, List.replicate_succ]
  | cons o out => simp [clockedOut, zeros, List.take_append, List.take_replicate]; omega

/-- Past the last octet of a result octets of 0 go out (R162). -/
theorem clockedOut_of_le {out : List Byte} {n : Nat} (whole : out.length ≤ n) :
    clockedOut out n = out ++ zeros (n - out.length) := by
  simp [clockedOut, zeros, List.take_append, List.take_replicate, List.take_of_length_le whole]

/-- Fewer octets clocked than a result has send its first ones (R162). -/
theorem clockedOut_of_lt {out : List Byte} {n : Nat} (short : n < out.length) : clockedOut out n = out.take n := by
  simp [clockedOut, List.take_append_of_le_length short.le]

namespace HostPort

variable (block : HostPort → List Byte)

/-- The octets of a result that removes nothing go out, and then octets of 0 (R162, R167, R168, R181, R183). -/
theorem clockOctets_result {k : TxnKind} (sends : k = .fetch ∨ k = .status ∨ k = .take ∨ k = .serviceDone)
    (l : List Byte) : ∀ (h : HostPort) (out : List Byte),
    l.foldl (clockOctet block) { h with txn := some (Txn.start k out false) } =
      { h with
        txn := some (Txn.start k (out.drop l.length) false), hdo := h.hdo ++ spiBits (clockedOut out l.length) } := by
  induction l with
  | nil => intro h out; simp [clockedOut]
  | cons b l ih =>
    intro h out
    have first : ({ h with txn := some (Txn.start k out false) } : HostPort).clockOctet block b =
        { h with txn := some (Txn.start k out.tail false), hdo := h.hdo ++ octetBits (out.headD 0) } := by
      rcases sends with rfl | rfl | rfl | rfl <;> rfl
    rw [List.foldl_cons, first, ih { h with hdo := h.hdo ++ octetBits (out.headD 0) }, List.length_cons,
      clockedOut_succ]
    simp

/-- The octets of a response entry go out, the last of them removes it, and then octets of 0 go out (R167). -/
theorem clockOctets_entry (l : List Byte) : ∀ (h : HostPort) (out : List Byte), out ≠ [] →
    ∃ t, t.kind = some .fetch ∧
      l.foldl (clockOctet block) { h with txn := some (Txn.start .fetch out true) } =
        { h with
          txn := some t
          responses := if out.length ≤ l.length then h.responses.tail else h.responses
          hdo := h.hdo ++ spiBits (clockedOut out l.length) } := by
  induction l with
  | nil => exact fun h out more => ⟨Txn.start .fetch out true, rfl, by simp [clockedOut, more]⟩
  | cons b l ih =>
    intro h out more
    obtain ⟨o, out, rfl⟩ := List.exists_cons_of_ne_nil more
    rw [List.length_cons, List.length_cons, clockedOut_succ, List.foldl_cons]
    rcases eq_or_ne out [] with rfl | more
    · refine ⟨Txn.start .fetch (([] : List Byte).drop l.length) false, rfl, (clockOctets_result block (.inl rfl) l
        { h with responses := h.responses.tail, hdo := h.hdo ++ octetBits o } []).trans ?_⟩
      simp
    · obtain ⟨t, kind, rest⟩ := ih { h with hdo := h.hdo ++ octetBits o } out more
      refine ⟨t, kind, ?_⟩
      have first : ({ h with txn := some (Txn.start .fetch (o :: out) true) } : HostPort).clockOctet block b =
          { h with txn := some (Txn.start .fetch out true), hdo := h.hdo ++ octetBits o } := by
        simp [clockOctet, Txn.outgoing, Txn.start, endOctet, Txn.sent, Txn.completes, more]
      rw [first, rest]
      simp

/-- The octets of a transaction of unknown kind are dropped, and octets of 0 go out (R162). -/
theorem clockOctets_unknown (l : List Byte) : ∀ h : HostPort,
    l.foldl (clockOctet block) { h with txn := some (Txn.start .unknown [] false) } =
      { h with txn := some (Txn.start .unknown [] false), hdo := h.hdo ++ spiBits (zeros l.length) } := by
  induction l with
  | nil => intro h; simp [zeros]
  | cons b l ih =>
    intro h
    refine (ih { h with hdo := h.hdo ++ octetBits 0 }).trans ?_
    simp [zeros, List.replicate_succ]

/-- The end of a header: the status octet has gone out, and the kind is served (R162, R163). -/
theorem clockOctet_header {h : HostPort} (idle : h.txn = none) (running : Bool) (header : Byte) :
    ∃ txn, (h.select running).clockOctet block header =
      ({ h with txn := txn, hdo := octetBits (h.statusOctet running) } : HostPort).serve (headerKind header)
        (block { h with txn := txn, hdo := octetBits (h.statusOctet running) }) := by
  rw [select_of_idle idle]
  exact ⟨_, rfl⟩

/-- At the header's end a FETCH with the response queue empty chooses the empty marker (R167). -/
theorem serve_fetch_empty {h : HostPort} (empty : h.responses = []) (txn : Option Txn) (sent : List Bool)
    (block : List Byte) : ({ h with txn := txn, hdo := sent } : HostPort).serve .fetch block =
      { h with txn := some (Txn.start .fetch [0] false), hdo := sent } := by
  unfold serve
  dsimp only
  rw [empty]
  rfl

/-- At the header's end a FETCH chooses the head entry (R167). -/
theorem serve_fetch_entry {h : HostPort} {e : ResponseEntry} {rest : List ResponseEntry}
    (queue : h.responses = e :: rest) (txn : Option Txn) (sent : List Bool) (block : List Byte) :
    ({ h with txn := txn, hdo := sent } : HostPort).serve .fetch block =
      { h with txn := some (Txn.start .fetch e.octets true), hdo := sent } := by
  unfold serve
  dsimp only
  rw [queue]
  rfl

/-- The clocks of a header in two pieces, at a port that the first piece left in its transaction (R162, R163). -/
theorem clockBits_header_resumed (block' : HostPort → List Byte) {g h : HostPort} {running : Bool} {a b : List Bool}
    (idle : h.txn = none) (whole : a.length + b.length = 8)
    (txn : g.txn = (a.foldl (clockBit block) (h.select running)).txn)
    (hdo : g.hdo = (a.foldl (clockBit block) (h.select running)).hdo) :
    (b.foldl (clockBit block') g).hdo = octetBits (h.statusOctet running) ∧
      (b.foldl (clockBit block') g).kind = some (headerKind (octetOf (a ++ b))) := by
  rw [select_of_idle idle] at txn hdo
  rcases eq_or_ne b [] with rfl | more
  · obtain ⟨sent, kind⟩ := clockBits_header block h (h.statusOctet running) (a := []) (l := a)
      (by simpa using whole) (by rintro rfl; cases whole)
    rw [List.foldl_nil, List.append_nil, hdo, HostPort.kind, txn]
    exact ⟨sent, kind⟩
  · have short : ([] : List Bool).length + a.length < 8 := by
      have := List.length_pos_of_ne_nil more
      rw [List.length_nil]; omega
    rw [clockBits_inHeader block h _ short] at txn hdo
    rw [eq_inHeader txn hdo]
    exact clockBits_header block' g _ whole more

end HostPort

/-! ### FETCH -/

namespace State

variable {s : State} {p : Port}

/-- A whole FETCH with the response queue empty sends the empty marker (R167). -/
theorem transact_fetch_empty (ready : s.listens p) (low : BitVec 4) (octets : List Byte)
    (empty : (s.port p).responses = []) : s.transact .fetch p (txnBits 2 low octets) true = s.modPort p fun h =>
      h.served (h.statusOctet s.running) (zeros octets.length) := by
  obtain ⟨-, -, due, idle⟩ := id ready
  have named : headerKind ((2 : BitVec 4) ++ low : Byte) = .fetch := by revert low; decide
  have marker (n : Nat) : clockedOut [0] n = zeros n := by
    cases n with
    | zero => rfl
    | succ n => rw [clockedOut_succ, List.tail_cons, clockedOut_of_le (Nat.zero_le n)]; rfl
  have clocks : (s.clocked p (txnBits 2 low octets)).port p = { s.port p with
      txn := some (Txn.start .fetch (([0] : List Byte).drop octets.length) false)
      hdo := spiBits ((s.port p).statusOctet s.running :: zeros octets.length) } := by
    obtain ⟨txn, header⟩ := HostPort.clockOctet_header (s.blockOf p) idle s.running ((2 : BitVec 4) ++ low)
    rw [clocked_txnBits idle, header, named, ← marker]
    rw [HostPort.serve_fetch_empty empty]
    exact HostPort.clockOctets_result _ (.inl rfl) octets
      { s.port p with hdo := octetBits ((s.port p).statusOctet s.running) } [0]
  rw [transact_serves ready clocks idle due rfl nofun nofun, HostPort.finish_of_sends (.inl rfl)]
  exact modPort_congr (HostPort.served_eq ..).symm

/-- A whole FETCH sends the head entry, which goes when its last octet has gone out (R167). -/
theorem transact_fetch_entry (ready : s.listens p) (low : BitVec 4) (octets : List Byte) {e : ResponseEntry}
    {rest : List ResponseEntry} (queue : (s.port p).responses = e :: rest) :
    s.transact .fetch p (txnBits 2 low octets) true = s.modPort p fun h =>
      ({ h with responses := if e.octets.length ≤ octets.length then rest else h.responses } : HostPort).served
        (h.statusOctet s.running) (clockedOut e.octets octets.length) := by
  obtain ⟨-, -, due, idle⟩ := id ready
  have named : headerKind ((2 : BitVec 4) ++ low : Byte) = .fetch := by revert low; decide
  obtain ⟨t, kind, sent⟩ := HostPort.clockOctets_entry (s.blockOf p) octets
    { s.port p with hdo := octetBits ((s.port p).statusOctet s.running) } e.octets (List.cons_ne_nil _ _)
  have clocks : (s.clocked p (txnBits 2 low octets)).port p = { s.port p with
      txn := some t
      responses := if e.octets.length ≤ octets.length then rest else (s.port p).responses
      hdo := spiBits ((s.port p).statusOctet s.running :: clockedOut e.octets octets.length) } := by
    obtain ⟨txn, header⟩ := HostPort.clockOctet_header (s.blockOf p) idle s.running ((2 : BitVec 4) ++ low)
    rw [clocked_txnBits idle, header, named, HostPort.serve_fetch_entry queue]
    exact sent.trans (by rw [queue]; rfl)
  rw [transact_serves (h := { s.port p with
      responses := if e.octets.length ≤ octets.length then rest else (s.port p).responses }) ready clocks idle due kind
    nofun nofun, HostPort.finish_of_sends (.inl kind)]
  exact modPort_congr (HostPort.served_eq ..).symm

end State

/-- Settles O12: the queue is empty (`State.transact_fetch_empty`), or the head entry is sent, and by whether the octets
reach its end it goes (`State.transact_fetch_entry`). -/
theorem fetchSendsHeadEntry : Obligations.FetchSendsHeadEntry := by
  intro p low octets s ready
  refine congrArg Host.Outcome.next ?_
  cases queue : (s.port p).responses with
  | nil =>
    rw [State.transact_fetch_empty ready low octets queue]
    refine State.modPort_congr ?_
    rw [queue]
  | cons e rest =>
    rw [State.transact_fetch_entry ready low octets queue]
    refine State.modPort_congr ?_
    rw [queue]
    dsimp only
    split
    · next whole => rw [clockedOut_of_le whole]
    · next short => rw [clockedOut_of_lt (Nat.lt_of_not_le short), ← queue]

/-! ### STATUS, and a transaction of unknown kind -/

theorem statusBlock_length (p : Port) (h : HostPort) (elapsed : Nat) (ring : RingState) (brk : Fin 17) (epoch : Epoch) :
    (statusBlock p h elapsed ring brk epoch).length = 21 := by
  simp [statusBlock, octetsNat, octets16, padTo]

namespace State

variable {s : State} {p : Port}

/-- A whole STATUS of at least 21 octets sends the status block of the port, and reads a free value (R168; log 4). -/
theorem transact_status (ready : s.listens p) (low : BitVec 4) {octets : List Byte} (whole : 21 ≤ octets.length) :
    s.transact .status p (txnBits 5 low octets) true =
      ({ s with freeCount := s.freeCount + 1 } : State).modPort p fun h =>
        h.served (h.statusOctet s.running) (s.blockOf p h ++ zeros (octets.length - 21)) := by
  obtain ⟨-, -, -, idle⟩ := id ready
  have named : headerKind ((5 : BitVec 4) ++ low : Byte) = .status := by revert low; decide
  have length : (s.blockOf p (s.port p)).length = 21 := statusBlock_length ..
  have out : clockedOut (s.blockOf p (s.port p)) octets.length =
      s.blockOf p (s.port p) ++ zeros (octets.length - 21) := by
    rw [clockedOut_of_le (by rw [length]; exact whole), length]
  have clocks : (s.clocked p (txnBits 5 low octets)).port p = { s.port p with
      txn := some (Txn.start .status ((s.blockOf p (s.port p)).drop octets.length) false)
      hdo := spiBits ((s.port p).statusOctet s.running ::
        (s.blockOf p (s.port p) ++ zeros (octets.length - 21))) } := by
    obtain ⟨txn, header⟩ := HostPort.clockOctet_header (s.blockOf p) idle s.running ((5 : BitVec 4) ++ low)
    rw [clocked_txnBits idle, header, named, ← out]
    exact HostPort.clockOctets_result _ (.inr (.inl rfl)) octets
      { s.port p with hdo := octetBits ((s.port p).statusOctet s.running) } (s.blockOf p (s.port p))
  have other : (Txn.start .status ((s.blockOf p (s.port p)).drop octets.length) false).kind ≠ some .post := nofun
  rw [transact_whole ready (bitsOf_txnBits named octets) (by rw [clocks]) rfl, finish_of_ne_post other,
    clocked_of_status idle clocks rfl, modPort_modPort, modPort_modPort]
  refine modPort_congr (s := { s with freeCount := s.freeCount + 1 }) ?_
  rw [HostPort.finish_of_sends (.inr rfl), ← idle]
  rfl

/-- A whole transaction of unknown kind sends octets of 0 and raises PROTOCOL (R162). -/
theorem transact_unknown (ready : s.listens p) {code low : BitVec 4}
    (named : headerKind (code ++ low : Byte) = .unknown) (octets : List Byte) :
    s.transact .unknown p (txnBits code low octets) true = s.modPort p fun h =>
      (h.raise .protocol).served (h.statusOctet s.running) (zeros octets.length) := by
  obtain ⟨-, -, due, idle⟩ := id ready
  have clocks : (s.clocked p (txnBits code low octets)).port p = { s.port p with
      txn := some (Txn.start .unknown [] false)
      hdo := spiBits ((s.port p).statusOctet s.running :: zeros octets.length) } := by
    obtain ⟨txn, header⟩ := HostPort.clockOctet_header (s.blockOf p) idle s.running (code ++ low)
    rw [clocked_txnBits idle, header, named]
    exact HostPort.clockOctets_unknown _ octets
      { s.port p with hdo := octetBits ((s.port p).statusOctet s.running) }
  rw [transact_serves ready clocks idle due rfl nofun nofun]
  exact modPort_congr (HostPort.served_eq ..).symm

/-! ### The header of a transaction -/

/-- A select period of fewer than eight clocks is an empty transaction, whatever kind it is taken for (R162; log 15). -/
theorem transact_short (ready : s.listens p) (k : TxnKind) {bits : List Bool} (short : bits.length < 8) :
    s.transact k p bits true = s.modPort p fun h =>
      { h with hdo := (octetBits (h.statusOctet s.running)).take bits.length } := by
  obtain ⟨-, -, -, idle⟩ := id ready
  have clocks : (s.clocked p bits).port p = (s.port p).inHeader ((s.port p).statusOctet s.running) bits := by
    rw [clocked_port, HostPort.select_of_idle idle, HostPort.clockBits_inHeader _ _ _ (by simpa using short),
      List.nil_append]
  have unnamed : ((s.clocked p bits).port p).kind = none := by rw [clocks]; rfl
  rw [transact_of_listens ready k bits true (.inl unnamed), if_pos rfl, release_of_unnamed unnamed,
    clocked_of_other clocks nofun, modPort_modPort]
  refine modPort_congr ?_
  rw [HostPort.inHeader, ← idle]

/-- A transaction that goes on with no lapse due and its kind named by the bits that came (R162). -/
theorem transact_goes_on {k : TxnKind} {bits : List Bool} (high : s.nresetLow = false)
    (free : (s.port p).heldOver = false) (due : (s.port p).lapseDue = false)
    (named : ((s.clocked p bits).port p).kind = none ∨ ((s.clocked p bits).port p).kind = some k) (release : Bool) :
    s.transact k p bits release = if release then (s.clocked p bits).release p else s.clocked p bits := by
  unfold transact
  rw [high, free, if_neg (by decide)]
  dsimp only
  rw [grantLapse_of_not_due due, if_pos named]

end State

/-- A beginning of a transaction's bits is one of that kind's. -/
theorem bitsOf_of_append {k : TxnKind} {a b : List Bool} (named : bitsOf k (a ++ b)) : bitsOf k a := by
  intro long
  rw [← named (by rw [List.length_append]; omega), List.take_append_of_le_length long]

/-- What the host clocks for a whole transaction is the command of the kind that its header names (R162, R191). -/
theorem selectPeriod_txnBits (code low : BitVec 4) (p : Port) (octets : List Byte) (release : Bool) :
    selectPeriod p (txnBits code low octets) release =
      some ((headerKind (code ++ low : Byte)).command code p (txnBits code low octets) release) := by
  have high : ∀ code low : BitVec 4, ((code ++ low : Byte).extractLsb' 4 4 : BitVec 4) = code := by decide
  have header : octetOf ((txnBits code low octets).take 8) = code ++ low := by
    rw [txnBits, spiBits_cons, List.take_left' (octetBits_length _), octetOf_octetBits]
  have long : ¬ (txnBits code low octets).length < 8 := by
    rw [txnBits, spiBits_length, List.length_cons]; omega
  unfold selectPeriod
  rw [if_neg long, header]
  dsimp only
  rw [high]

theorem headerKind_unknown {code : BitVec 4} (other : code = 0 ∨ 9 ≤ code.toNat) (low : BitVec 4) :
    headerKind (code ++ low : Byte) = .unknown := by
  revert code low; decide

/-- The status octet of a header in two pieces is that of the assertion of select, and the header's end names the kind,
whatever comes between the two (R162, R163). -/
theorem header_in_two_pieces {k : TxnKind} {p : Port} {a b : List Bool} {s u : State} (ready : s.listens p)
    (whole : a.length + b.length = 8) (named : bitsOf k (a ++ b)) (high : u.nresetLow = false)
    (free : (u.port p).heldOver = false) (due : (u.port p).lapseDue = false)
    (txn : (u.port p).txn = ((s.transact k p a false).port p).txn)
    (hdo : (u.port p).hdo = ((s.transact k p a false).port p).hdo) :
    ((u.transact k p b false).port p).hdo = octetBits ((s.port p).statusOctet s.running) ∧
      ((u.transact k p b false).port p).kind = some k := by
  obtain ⟨-, -, -, idle⟩ := id ready
  rw [State.transact_held ready (bitsOf_of_append named)] at txn hdo
  have busy : (u.port p).txn.isSome = true := by rw [txn]; exact s.clocked_busy p a
  obtain ⟨sent, kind⟩ : ((u.clocked p b).port p).hdo = octetBits ((s.port p).statusOctet s.running) ∧
      ((u.clocked p b).port p).kind = some (headerKind (octetOf (a ++ b))) := by
    rw [State.clocked_port, HostPort.select_of_busy busy]
    exact HostPort.clockBits_header_resumed (s.blockOf p) (u.blockOf p) idle whole
      (txn.trans (congrArg HostPort.txn (s.clocked_port p a))) (hdo.trans (congrArg HostPort.hdo (s.clocked_port p a)))
  have length : (a ++ b).length = 8 := by rw [List.length_append, whole]
  have kind : ((u.clocked p b).port p).kind = some k := by
    rw [kind, ← named length.ge, List.take_of_length_le length.le]
  rw [State.transact_goes_on high free due (.inr kind)]
  exact ⟨sent, kind⟩

/-- Settles O15: the header whole, too short, and in two pieces, and then the two whole transactions. -/
theorem statusAndUnknownKind : Obligations.StatusAndUnknownKind := by
  refine ⟨fun low p octets release => ?_, fun k code p bits s ready short => ⟨if_pos short, ?_⟩,
    fun k code p a b s t u v ready whole named next high free due txn hdo next' => ?_,
    fun p low octets s ready => ⟨fun whole => ?_, fun code other => ?_⟩⟩
  · have known (code : BitVec 4) (k : TxnKind) (named : ∀ low : BitVec 4, headerKind (code ++ low : Byte) = k) :
        selectPeriod p (txnBits code low octets) release =
          some (k.command code p (txnBits code low octets) release) := by
      rw [selectPeriod_txnBits, named]
    exact ⟨known 1 .request (by decide), known 2 .fetch (by decide), known 3 .drain (by decide),
      known 4 .post (by decide), known 5 .status (by decide), known 6 .take (by decide),
      known 7 .serviceDone (by decide), known 8 .eventset (by decide),
      fun code other => known code .unknown (headerKind_unknown other)⟩
  · rw [exec_command, State.transact_short ready k short]
  · rw [exec_command] at next next'
    cases next
    cases next'
    exact header_in_two_pieces ready whole named high free due txn hdo
  · exact congrArg Host.Outcome.next (State.transact_status ready low whole)
  · exact congrArg Host.Outcome.next (State.transact_unknown ready (headerKind_unknown other low) octets)

end Sys2Proof.Machine
end

section
/-! SUPPORT. A transaction cut into commands at any bit, its last octet cut off by the release, the level of HDO, and
what a transaction leaves as it was (R161, R162, R186; log 15). -/

namespace Sys2Proof.Machine

namespace State

variable {s : State} {p : Port} {k : TxnKind} {bits a b : List Bool}

/-! ### A transaction in several commands -/

theorem clocked_port_ne (s : State) {p q : Port} (h : p ≠ q) (bits : List Bool) :
    (s.clocked p bits).port q = s.port q := Table.get_set_ne _ _ h

/-- The model's counter after bits clocked (log 4). -/
theorem clocked_freeCount (s : State) (p : Port) (bits : List Bool) : (s.clocked p bits).freeCount =
    if (s.port p).kind = none ∧ ((s.clocked p bits).port p).kind = some .status then s.freeCount + 1
    else s.freeCount := by
  rw [clocked_port]
  rfl

/-- Bits clocked at a port whose transaction's kind is named change that port alone (log 4). -/
theorem clocked_of_named (named : (s.port p).kind = some k) {h : HostPort} (clocks : (s.clocked p bits).port p = h) :
    s.clocked p bits = s.modPort p fun _ => h := by
  subst clocks
  rw [clocked_port]
  unfold clocked
  dsimp only
  rw [if_neg fun status => by rw [named] at status; cases status.1]
  rfl

/-- The port after bits clocked in two pieces: the status block is read at the header's end, once (R162, R168). -/
theorem clocked_append_port (s : State) (p : Port) (a b : List Bool) :
    ((s.clocked p a).clocked p b).port p = (s.clocked p (a ++ b)).port p := by
  rw [clocked_port (s.clocked p a), HostPort.select_of_busy (s.clocked_busy p a), clocked_port s p (a ++ b),
    List.foldl_append, ← clocked_port]
  cases kind : ((s.clocked p a).port p).kind with
  | some j => exact HostPort.clockBits_block_of_named _ _ b kind
  | none =>
    rw [clocked_of_other (s := s) (bits := a) rfl (by rw [kind]; nofun), modPort_port_self]
    rfl

/-- Bits clocked in two pieces from the assertion of select on are the bits clocked at once (R162). -/
theorem clocked_append (idle : (s.port p).txn = none) (a b : List Bool) :
    (s.clocked p a).clocked p b = s.clocked p (a ++ b) := by
  have port := clocked_append_port s p a b
  have ports : ((s.clocked p a).clocked p b).ports = (s.clocked p (a ++ b)).ports := by
    refine Table.ext_get fun q => ?_
    by_cases h : p = q
    · subst h; exact port
    · exact ((clocked_port_ne _ h b).trans (clocked_port_ne s h a)).trans (clocked_port_ne s h (a ++ b)).symm
  have unnamed : (s.port p).kind = none := by rw [HostPort.kind, idle]; rfl
  have count : ((s.clocked p a).clocked p b).freeCount = (s.clocked p (a ++ b)).freeCount := by
    rw [clocked_freeCount (s.clocked p a), port, clocked_freeCount s p a, clocked_freeCount s p (a ++ b)]
    cases kind : ((s.clocked p a).port p).kind with
    | none => simp [unnamed]
    | some j =>
      have kept : ((s.clocked p (a ++ b)).port p).kind = some j := by
        rw [clocked_port, List.foldl_append, ← clocked_port]
        exact HostPort.clockBits_kind_of_named _ b kind
      simp [unnamed, kept]
  calc (s.clocked p a).clocked p b
      = { s with
          ports := ((s.clocked p a).clocked p b).ports
          freeCount := ((s.clocked p a).clocked p b).freeCount } := rfl
    _ = s.clocked p (a ++ b) := by rw [ports, count]; rfl

/-- A transaction command whose bits go on where an earlier one held select leads where one command leads (R162; log
15). -/
theorem transact_append (ready : s.listens p) (named : bitsOf k (a ++ b)) (release : Bool) :
    (s.transact k p a false).transact k p b release = s.transact k p (a ++ b) release := by
  obtain ⟨high, free, due, idle⟩ := id ready
  rw [transact_held ready (bitsOf_of_append named),
    transact_goes_on (s := s.clocked p a) high (by rw [clocked_heldOver, free])
    (by rw [clocked_lapseDue, due]) (by rw [clocked_append idle]; exact clocked_kind_of_bitsOf idle named),
    clocked_append idle, transact_of_bitsOf ready named]

end State

/-! ### An octet that the release cuts off -/

namespace HostPort

variable (block : HostPort → List Byte)

/-- The octet that the release cuts off has sent as many bits as came, and leaves kind and octets taken as they were
(R162). -/
theorem clockBits_cut {h : HostPort} {t : Txn} (ht : h.txn = some t) (whole : t.bits = []) {cut : List Bool}
    (short : cut.length < 8) : ∃ x out, out.length = cut.length ∧ x.kind = t.kind ∧ x.taken = t.taken ∧
      cut.foldl (clockBit block) h = { h with txn := some x, hdo := h.hdo ++ out } := by
  rcases eq_or_ne cut [] with rfl | more
  · exact ⟨t, [], rfl, rfl, rfl, by rw [List.append_nil, ← ht]; rfl⟩
  · refine ⟨_, _, ?_, ?_, ?_, clockBits_short block cut h t ht (by rw [whole]; simpa using short) more⟩
    · rw [whole, List.length_nil, List.drop_zero, List.length_take_of_le (by rw [octetBits_length]; omega)]
    · exact t.outgoing_kind _
    · exact t.outgoing_taken _

/-- After whole octets no bits of the next one are held (R162). -/
theorem clockBits_spiBits_txn (l : List Byte) : ∀ (h : HostPort) (t : Txn), h.txn = some t → t.bits = [] →
    ∃ x, ((spiBits l).foldl (clockBit block) h).txn = some x ∧ x.bits = [] := by
  induction l with
  | nil => exact fun h t ht whole => ⟨t, ht, whole⟩
  | cons b l ih =>
    intro h t ht whole
    rw [spiBits_cons, List.foldl_append, clockBits_octet block h t b ht whole]
    obtain ⟨x, hx, none⟩ := endOctet_txn _ block (t.outgoing h.delivery) b
    exact ih _ x hx none

/-- The completion of a transaction looks at its kind and at the octets taken alone (R162). -/
theorem finish_congr {x t : Txn} (kind : x.kind = t.kind) (taken : x.taken = t.taken) (h : HostPort) :
    h.finish x = h.finish t := by
  unfold finish
  rw [kind, taken]

end HostPort

namespace State

theorem finish_congr {x t : Txn} (kind : x.kind = t.kind) (taken : x.taken = t.taken) (s : State) (p : Port) :
    s.finish p x = s.finish p t := by
  unfold finish
  rw [kind, taken]
  exact modPort_congr (HostPort.finish_congr kind taken _)

/-- The completion of a transaction does not look at what went out on HDO (R162). -/
theorem finish_modPort_hdo (s : State) (p : Port) (t : Txn) (sent : List Bool) :
    (s.modPort p fun h => { h with hdo := sent }).finish p t =
      (s.finish p t).modPort p fun h => { h with hdo := sent } := by
  have own (u : State) : ((u.modPort p fun h => { h with hdo := sent }).modPort p fun h => h.finish t) =
      (u.modPort p fun h => h.finish t).modPort p fun h => { h with hdo := sent } := by
    rw [modPort_modPort, modPort_modPort]
    exact modPort_congr (HostPort.finish_with_hdo _ t sent)
  unfold finish
  split
  · rw [takePost_modPort_hdo, own]
  · exact own s

/-- What a completion does at its own port: a post that is rejected raises PROTOCOL, and every kind has its effect
(R145, R162). -/
theorem finish_port (s : State) (p : Port) (t : Txn) :
    ∃ rejects, (s.finish p t).port p = ((s.port p).raiseIf rejects .protocol).finish t := by
  unfold finish
  rw [modPort_port_self]
  split
  · exact ⟨_, congrArg (HostPort.finish · t) (Table.get_modify_self _ _ _)⟩
  · exact ⟨false, rfl⟩

end State

/-- A completion leaves the transaction, the hold and the record of HDO of its port as they were. -/
theorem HostPort.finish_txn_heldOver_hdo (h : HostPort) (t : Txn) :
    (h.finish t).txn = h.txn ∧ (h.finish t).heldOver = h.heldOver ∧ (h.finish t).hdo = h.hdo := by
  unfold finish
  split
  all_goals simp

namespace State

variable {s : State} {p : Port} {k : TxnKind} {bits : List Bool}

theorem finish_port_txn_heldOver_hdo (s : State) (p : Port) (t : Txn) :
    ((s.finish p t).port p).txn = (s.port p).txn ∧ ((s.finish p t).port p).heldOver = (s.port p).heldOver ∧
      ((s.finish p t).port p).hdo = (s.port p).hdo := by
  obtain ⟨rejects, port⟩ := s.finish_port p t
  obtain ⟨txn, held, hdo⟩ := ((s.port p).raiseIf rejects .protocol).finish_txn_heldOver_hdo t
  rw [port, txn, held, hdo]
  simp

/-- The bits of a header and whatever follows are those of the kind that the header names (R162). -/
theorem bitsOf_spiBits {header : Byte} (kind : headerKind header = k) (octets : List Byte) (l : List Bool) :
    bitsOf k (spiBits (header :: octets) ++ l) := by
  intro _
  rw [spiBits_cons, List.append_assoc, List.take_left' (octetBits_length _), octetOf_octetBits, kind]

/-- Whole octets clocked from the assertion of select on leave a transaction of the header's kind, with no bits of the
next octet (R162). -/
theorem clocked_spiBits_txn (idle : (s.port p).txn = none) {header : Byte} (kind : headerKind header = k)
    (octets : List Byte) :
    ∃ t, ((s.clocked p (spiBits (header :: octets))).port p).txn = some t ∧ t.kind = some k ∧ t.bits = [] := by
  obtain ⟨t, txn, whole⟩ : ∃ t, ((s.clocked p (spiBits (header :: octets))).port p).txn = some t ∧ t.bits = [] := by
    rw [clocked_port, HostPort.select_of_idle idle]
    exact HostPort.clockBits_spiBits_txn _ _ _ _ rfl rfl
  have long : ¬ (spiBits (header :: octets)).length < 8 := by rw [spiBits_length, List.length_cons]; omega
  have named := clocked_kind idle (spiBits (header :: octets))
  rw [if_neg long, spiBits_cons, List.take_left' (octetBits_length _), octetOf_octetBits, kind, ← spiBits_cons,
    HostPort.kind_of_txn txn] at named
  exact ⟨t, txn, named, whole⟩

/-- The bits of an octet that the release cuts off are not part of the transaction: only as many bits more have gone out
(R162). -/
theorem transact_cut_octet (ready : s.listens p) {header : Byte} (kind : headerKind header = k) (octets : List Byte)
    {cut : List Bool} (short : cut.length < 8) : ∃ out : List Bool, out.length = cut.length ∧
      s.transact k p (spiBits (header :: octets) ++ cut) true =
        (s.transact k p (spiBits (header :: octets)) true).modPort p fun h => { h with hdo := h.hdo ++ out } := by
  obtain ⟨-, -, -, idle⟩ := id ready
  obtain ⟨t, txn, tKind, whole⟩ := clocked_spiBits_txn idle kind octets
  have named : bitsOf k (spiBits (header :: octets)) := bitsOf_of_append (bitsOf_spiBits kind octets [])
  generalize clocked : s.clocked p (spiBits (header :: octets)) = u at txn
  obtain ⟨x, out, length, xKind, taken, rest⟩ := HostPort.clockBits_cut (u.blockOf p) txn whole short
  have cutPort : (u.clocked p cut).port p = { u.port p with txn := some x, hdo := (u.port p).hdo ++ out } := by
    rw [clocked_port, HostPort.select_of_busy (by rw [txn]; rfl), rest]
  have ended : (u.modPort p fun _ => { u.port p with txn := none, hdo := (u.port p).hdo ++ out }) =
      (u.modPort p fun h => { h with txn := none }).modPort p fun h => { h with hdo := (u.port p).hdo ++ out } := by
    rw [modPort_modPort]; exact modPort_congr rfl
  refine ⟨out, length, ?_⟩
  rw [transact_whole ready (bitsOf_spiBits kind octets cut) (by rw [← clocked_append idle, clocked, cutPort])
      (xKind.trans tKind),
    ← clocked_append idle, transact_whole ready named (by rw [clocked, txn]) tKind, clocked,
    clocked_of_named ((HostPort.kind_of_txn txn).trans tKind) cutPort, modPort_modPort, finish_congr xKind taken]
  refine (congrArg (fun v : State => v.finish p t) ended).trans ((finish_modPort_hdo _ p t _).trans (modPort_congr ?_))
  obtain ⟨-, -, hdo⟩ := (u.modPort p fun h => { h with txn := none }).finish_port_txn_heldOver_hdo p t
  rw [hdo, modPort_port_self]

/-! ### The level of HDO (R162) -/

/-- HDO is at high impedance while select is released. -/
theorem hdoPin_of_released (released : (s.port p).selected = false) (clock : Bool) : s.hdoPin p clock = none := by
  unfold hdoPin
  rw [released]
  rfl

/-- While HCLK is low HDO carries the bit of the next clock. -/
theorem hdoPin_low (selected : (s.port p).selected = true) : s.hdoPin p false = some (s.port p).nextOut := by
  unfold hdoPin
  rw [if_pos selected]
  rfl

/-- While HCLK is high HDO still carries the bit of the last clock. -/
theorem hdoPin_high (selected : (s.port p).selected = true) {sent : List Bool} {x : Bool}
    (last : (s.port p).hdo = sent ++ [x]) : s.hdoPin p true = some x := by
  unfold hdoPin
  rw [if_pos selected, last, List.getLast?_concat]
  rfl

theorem clocked_selected (s : State) (p : Port) (bits : List Bool) : ((s.clocked p bits).port p).selected = true := by
  rw [HostPort.selected, clocked_busy, Bool.true_or]

/-- One more clock sends the bit that HDO carried while HCLK was low. -/
theorem clocked_bit_hdo (busy : (s.port p).txn.isSome = true) (b : Bool) :
    ((s.clocked p [b]).port p).hdo = (s.port p).hdo ++ [(s.port p).nextOut] := by
  obtain ⟨t, txn⟩ := Option.isSome_iff_exists.mp busy
  obtain ⟨-, sent, -⟩ := HostPort.clockBit_of_txn (s.blockOf p) txn b
  rw [clocked_port, HostPort.select_of_busy busy]
  exact sent

/-- A release leaves select released. -/
theorem release_selected (free : (s.port p).heldOver = false) : ((s.release p).port p).selected = false := by
  have released (h : HostPort) (txn : h.txn = none) (held : h.heldOver = false) : h.selected = false := by
    rw [HostPort.selected, txn, held]
    rfl
  unfold release
  split
  next txn => exact released _ txn free
  next t txn =>
    dsimp only
    repeat' split
    · rw [modPort_port_self]; exact released _ rfl free
    · rw [modPort_port_self, modPort_port_self]; exact released _ rfl free
    · obtain ⟨txn, held, -⟩ := (s.modPort p fun h => { h with txn := none }).finish_port_txn_heldOver_hdo p t
      rw [modPort_port_self] at txn held
      exact released _ txn (held.trans free)

/-! ### What a transaction leaves as it was -/

/-- The second state has every port but one, the streams, the plans, the ring, the Control Channel and the Node Table of
the first (R161). -/
structure sparesOthers (p : Port) (s t : State) : Prop where
  ports : ∀ q, q ≠ p → t.port q = s.port q
  streams : t.streams = s.streams
  plans : t.plans = s.plans
  ring : t.ring = s.ring
  control : t.control = s.control
  nodes : t.nodes = s.nodes

theorem sparesOthers_refl (s : State) (p : Port) : s.sparesOthers p s := ⟨fun _ _ => rfl, rfl, rfl, rfl, rfl, rfl⟩

theorem sparesOthers.trans {s t u : State} {p : Port} (h : s.sparesOthers p t) (g : t.sparesOthers p u) :
    s.sparesOthers p u :=
  ⟨fun q hq => (g.ports q hq).trans (h.ports q hq), g.streams.trans h.streams, g.plans.trans h.plans,
    g.ring.trans h.ring, g.control.trans h.control, g.nodes.trans h.nodes⟩

theorem modPort_sparesOthers (s : State) (p : Port) (f : HostPort → HostPort) : s.sparesOthers p (s.modPort p f) :=
  ⟨fun _ hq => s.modPort_port_ne f hq.symm, rfl, rfl, rfl, rfl, rfl⟩

theorem finish_sparesOthers (s : State) (p : Port) (t : Txn) : s.sparesOthers p (s.finish p t) := by
  have posted : s.sparesOthers p (s.takePost p t.taken) :=
    ⟨fun _ hq => Table.get_modify_ne _ _ hq.symm, rfl, rfl, rfl, rfl, rfl⟩
  unfold finish
  split
  · exact posted.trans (modPort_sparesOthers _ p _)
  · exact s.modPort_sparesOthers p _

theorem finishEnded_sparesOthers (s : State) (p : Port) : s.sparesOthers p (s.finishEnded p) :=
  finishEnded_induct (P := s.sparesOthers p) (fun u t h => h.trans (u.finish_sparesOthers p t)) s
    (s.modPort_sparesOthers p _)

theorem endSession_sparesOthers (s : State) (p : Port) : s.sparesOthers p (s.endSession p) :=
  ⟨fun _ hq => Table.get_modify_ne _ _ hq.symm, rfl, rfl, rfl, rfl, rfl⟩

theorem grantLapse_sparesOthers (s : State) (p : Port) : s.sparesOthers p (s.grantLapse p) := by
  rcases s.grantLapse_cases p with ⟨-, e⟩ | ⟨-, -, e⟩ <;> rw [e]
  · exact s.sparesOthers_refl p
  · rcases s.lapse_cases p with ⟨-, e⟩ | ⟨-, e⟩ <;> rw [e]
    · exact ((s.endSession_sparesOthers p).trans (modPort_sparesOthers _ p _)).trans (finishEnded_sparesOthers _ p)
    · exact (s.modPort_sparesOthers p _).trans (finishEnded_sparesOthers _ p)

theorem clocked_sparesOthers (s : State) (p : Port) (bits : List Bool) : s.sparesOthers p (s.clocked p bits) :=
  ⟨fun _ hq => s.clocked_port_ne hq.symm bits, rfl, rfl, rfl, rfl, rfl⟩

theorem release_sparesOthers (s : State) (p : Port) : s.sparesOthers p (s.release p) := by
  have ended := s.modPort_sparesOthers p fun h => { h with txn := none }
  unfold release
  split
  · exact s.sparesOthers_refl p
  · dsimp only
    repeat' split
    · exact ended
    · exact ended.trans (modPort_sparesOthers _ p _)
    · exact ended.trans (finish_sparesOthers _ p _)

/-- A transaction command reaches no other port, and nothing of the streams, the plans, the ring, the Control Channel
and the Node Table (R161). -/
theorem transact_sparesOthers (s : State) (k : TxnKind) (p : Port) (bits : List Bool) (release : Bool) :
    s.sparesOthers p (s.transact k p bits release) := by
  unfold transact
  split
  · exact s.modPort_sparesOthers p _
  · have clocks := (s.grantLapse_sparesOthers p).trans (clocked_sparesOthers _ p bits)
    dsimp only
    repeat' split
    · exact clocks.trans (release_sparesOthers _ p)
    · exact clocks
    · exact s.grantLapse_sparesOthers p

end State

/-- Settles O19: pieces one after another (`State.transact_append`), a last octet cut off (`State.transact_cut_octet`),
HDO at the clock of one bit, and what no transaction reaches (`State.transact_sparesOthers`). -/
theorem transactionsMayBeCut : Obligations.TransactionsMayBeCut := by
  refine ⟨fun k code p a b release s t ready named next => ?_,
    fun k code p header octets cut s t ready kind short next => ?_,
    fun k code p bits b s t u ready named next next' => ?_,
    fun k code p q bits release s t next other => ?_⟩
  · rw [exec_command] at next
    cases next
    rw [exec_command, exec_command, State.transact_append ready named]
  · rw [exec_command] at next
    cases next
    obtain ⟨out, length, e⟩ := State.transact_cut_octet ready kind octets short
    exact ⟨out, length, by rw [exec_command, e]⟩
  · obtain ⟨-, free, -, idle⟩ := id ready
    have begun := bitsOf_of_append named
    have released : (s.port p).selected = false := by rw [HostPort.selected, idle, free]; rfl
    rw [exec_command] at next next'
    cases next
    rw [State.transact_append ready named, State.transact_held ready named, ← State.clocked_append idle] at next'
    cases next'
    rw [State.transact_held ready begun]
    have sent := State.clocked_bit_hdo (s.clocked_busy p bits) b
    have low := State.hdoPin_low (s.clocked_selected p bits)
    refine ⟨released, State.hdoPin_of_released released, s.clocked_selected p bits,
      ⟨_, low, sent, State.hdoPin_high (State.clocked_selected _ p [b]) sent, ?_⟩, (s.clocked p bits).release p, ?_⟩
    · rintro rfl
      refine ⟨?_, low⟩
      rw [State.clocked_port, HostPort.select_of_idle idle]
      rfl
    · have off := State.release_selected (s := s.clocked p bits) (p := p) (by rw [State.clocked_heldOver, free])
      exact ⟨by rw [exec_command, State.transact_of_bitsOf ready begun]; rfl, off, State.hdoPin_of_released off⟩
  · rw [exec_command] at next
    cases next
    obtain ⟨ports, streams, plans, ring, control, nodes⟩ := s.transact_sparesOthers k p bits release
    exact ⟨ports q other, streams, plans, ring, control, nodes⟩

end Sys2Proof.Machine
end

section
/-! SUPPORT. What is raised and when attention is drawn (R178 to R180), the kind that a TAKE chooses (R181), and a whole
TAKE, DONE and EVENTSET (R181, R183, R184). -/

namespace Sys2Proof.Machine

/-! ### Raises, attention and notices -/

/-- A raise leaves the kinds of other ranks as they were (R179). -/
theorem EventUnit.raise_get_ne (e : EventUnit) {k : EventKind} {j : Fin 7} (other : j ≠ k.rank) :
    (e.raise k).kinds.get j = e.kinds.get j := Table.get_modify_ne _ _ other.symm

/-- A raise of a kind that is pending sets its repeat flag, and makes any other pending (R179). -/
theorem EventUnit.raise_get_self (e : EventUnit) (k : EventKind) :
    (e.raise k).kinds.get k.rank = if (e.kinds.get k.rank).pending then
      { e.kinds.get k.rank with repeated := true } else { e.kinds.get k.rank with pending := true } :=
  Table.get_modify_self ..

/-- A level is above the service mark when no service is open, or when it is URGENT and a ROUTINE service is on top
(R180). -/
theorem EventUnit.above_mark (e : EventUnit) (l : Level) : l.above e.mark = true ↔
    e.stack = [] ∨ ∃ rest, e.stack = .routine :: rest ∧ l = .urgent := by
  unfold mark
  cases e.stack with
  | nil => simp [Level.above]
  | cons top rest => cases top <;> simp [Level.above]

namespace HostPort

/-- The attention line asks for a session and for a pending enabled kind above the service mark (R180). -/
theorem attention_iff (h : HostPort) : h.attention = true ↔
    h.attached = true ∧ ∃ j, h.events.counts j = true ∧ (h.events.kinds.get j).level.above h.events.mark = true := by
  simp [attention]

theorem post_of_not_attached {h : HostPort} (ha : h.attached = false) (n : Notice) : h.post n = h := by
  simpa [ha] using h.post_cases n

/-- With no free entry a notice is dropped (R166, R178). -/
theorem post_of_full {h : HostPort} (ha : h.attached = true)
    (full : 8 ≤ h.responses.length + (if h.reserved then 1 else 0)) (n : Notice) : h.post n = h.raise .overflow := by
  have free : h.hasFree = false := by rw [Bool.eq_false_iff, ne_eq, hasFree_iff]; exact Nat.not_lt_of_le full
  simpa [ha, free] using h.post_cases n

/-- A free entry takes a notice at the tail (R166, R178). -/
theorem post_of_room {h : HostPort} (ha : h.attached = true)
    (room : h.responses.length + (if h.reserved then 1 else 0) < 8) (n : Notice) :
    h.post n = (h.append (.notice n)).raiseIf n.ofStream .streamChange := by
  have free : h.hasFree = true := hasFree_iff.mpr room
  simpa [ha, free] using h.post_cases n

end HostPort

/-- Settles O58: the raise at its kind and at the others, the attention line by the service mark, and the notice by the
session and the room. -/
theorem eventsAndNotices : Obligations.EventsAndNotices := by
  intro h k n
  refine ⟨fun detached => ⟨HostPort.raise_of_not_attached k detached, HostPort.post_of_not_attached detached n⟩,
    fun ha => ?_, ?_, fun ha full => HostPort.post_of_full ha full n, fun ha room => ?_⟩
  · rw [HostPort.raise_of_attached k ha]
    refine ⟨fun j other => EventUnit.raise_get_ne _ other, fun pending => ?_, fun pending => ?_⟩ <;>
      exact (EventUnit.raise_get_self _ k).trans (by rw [pending]; rfl)
  · simp [HostPort.attention_iff, EventUnit.counts, EventUnit.above_mark, and_assoc]
  · rw [HostPort.post_of_room ha room]
    cases n <;> rfl

/-! ### The kind that a TAKE chooses (R181) -/

namespace EventUnit

variable {e : EventUnit} {k : Fin 7}

theorem chosen_eq_none (idle : ∀ k, e.counts k = false) : e.chosen = none := by
  simp [chosen, idle]

/-- A TAKE chooses the kind of the lowest rank among the URGENT ones, or among all when none is URGENT (R181). -/
theorem chosen_eq_some (counts : e.counts k = true)
    (first : ∀ j, e.counts j = true → (e.kinds.get j).level = .urgent → (e.kinds.get k).level = .urgent ∧ k ≤ j)
    (lowest : ∀ j, e.counts j = true → (e.kinds.get k).level = .routine → k ≤ j) : e.chosen = some k := by
  have urgent (j : Fin 7) : (e.counts j && (e.kinds.get j).level == .urgent) = true ↔
      e.counts j = true ∧ (e.kinds.get j).level = .urgent := by simp
  unfold chosen
  cases level : (e.kinds.get k).level with
  | urgent =>
    rw [find?_finRange_eq_some.mpr ⟨(urgent k).mpr ⟨counts, level⟩, fun j before => ?_⟩, Option.some_or]
    refine Bool.eq_false_iff.mpr fun found => absurd before (Fin.not_lt.mpr ?_)
    obtain ⟨hj, high⟩ := (urgent j).mp found
    obtain ⟨-, le⟩ := first j hj high
    exact le
  | routine =>
    have unfound : (List.finRange 7).find? (fun j => e.counts j && (e.kinds.get j).level == .urgent) = none := by
      refine List.find?_eq_none.mpr fun j _ found => ?_
      obtain ⟨hj, high⟩ := (urgent j).mp found
      obtain ⟨high, -⟩ := first j hj high
      cases level.symm.trans high
    rw [unfound, Option.none_or, find?_finRange_eq_some]
    exact ⟨counts, fun j before => Bool.eq_false_iff.mpr fun hj => absurd before (Fin.not_lt.mpr (lowest j hj level))⟩

/-- A kind that is handed out no longer counts, and the others count as before (R181). -/
theorem handOut_counts (e : EventUnit) (k j : Fin 7) : (e.handOut k).counts j = (j != k && e.counts j) := by
  unfold counts handOut
  rw [Table.get_modify]
  by_cases same : k = j
  · simp [same]
  · simp [same, Ne.symm same]

/-- The kinds left after one that counts is handed out are one fewer (R181). -/
theorem handOut_waiting (counts : e.counts k = true) : (e.handOut k).waiting = e.waiting - 1 := by
  have left : (List.finRange 7).filter (e.handOut k).counts = ((List.finRange 7).filter e.counts).erase k := by
    rw [((List.nodup_finRange 7).filter _).erase_eq_filter, List.filter_filter]
    exact List.filter_congr fun j _ => e.handOut_counts k j
  have held : k ∈ (List.finRange 7).filter e.counts := by simp [counts]
  rw [waiting, left, List.length_erase_of_mem held]
  rfl

theorem take_of_none (idle : e.chosen = none) : e.take = (e, [1, 0xFF, 0, 0]) := by
  simp [take, idle]

/-- With room on the service stack the chosen kind is handed out, and its level pushed (R181). -/
theorem take_of_room (chosen : e.chosen = some k) (counts : e.counts k = true) (room : e.stack.length < 2) :
    e.take = (e.handOut k, [0, octet k.val, flagOctet (e.kinds.get k).repeated, octet (e.waiting - 1)]) := by
  have room : e.stack.length < Config.stackRoom := room
  simp only [take, chosen, room, if_true, handOut_waiting counts]

/-- With the service stack full the chosen kind is told of, and keeps its flags (R181). -/
theorem take_of_full (chosen : e.chosen = some k) (full : ¬ e.stack.length < 2) :
    e.take = (e, [2, octet k.val, flagOctet (e.kinds.get k).repeated, octet e.waiting]) := by
  have full : ¬ e.stack.length < Config.stackRoom := full
  simp only [take, chosen, full, if_false]

theorem serviceDone_of_empty (empty : e.stack = []) : e.serviceDone = (e, [1, 0, 0]) := by
  simp [serviceDone, empty]

theorem serviceDone_of_cons {l : Level} {rest : List Level} (stack : e.stack = l :: rest) :
    e.serviceDone = ({ e with stack := rest }, [0, octet l.code, octet rest.length]) := by
  simp [serviceDone, stack]

end EventUnit

/-! ### A whole TAKE and DONE -/

/-- The completion of a TAKE or a DONE, which act at their header, loads the lease and does nothing else (R171). -/
theorem HostPort.finish_of_service {t : Txn} (service : t.kind = some .take ∨ t.kind = some .serviceDone)
    (h : HostPort) : h.finish t = h.touchLease := by
  unfold finish
  rcases service with kind | kind <;> rw [kind]

namespace State

variable {s : State} {p : Port}

/-- A whole TAKE or DONE at a port that listens, by the events that its header's end leaves and the result that it then
sends (R162, R181, R183). -/
theorem transact_service {k : TxnKind} {code low : BitVec 4} {events : EventUnit} {result : List Byte}
    (ready : s.listens p) (service : k = .take ∨ k = .serviceDone) (named : headerKind (code ++ low : Byte) = k)
    (serves : ∀ txn sent block, ({ s.port p with txn := txn, hdo := sent } : HostPort).serve k block =
      { s.port p with events := events, txn := some (Txn.start k result false), hdo := sent })
    (octets : List Byte) : s.transact k p (txnBits code low octets) true = s.modPort p fun h =>
      ({ h with events := events } : HostPort).served (h.statusOctet s.running)
        (clockedOut result octets.length) := by
  obtain ⟨-, -, due, idle⟩ := id ready
  have clocks : (s.clocked p (txnBits code low octets)).port p = { s.port p with
      events := events
      txn := some (Txn.start k (result.drop octets.length) false)
      hdo := spiBits ((s.port p).statusOctet s.running :: clockedOut result octets.length) } := by
    obtain ⟨txn, header⟩ := HostPort.clockOctet_header (s.blockOf p) idle s.running (code ++ low)
    rw [clocked_txnBits idle, header, named, serves]
    exact HostPort.clockOctets_result _ (.inr (.inr service)) octets
      { s.port p with events := events, hdo := octetBits ((s.port p).statusOctet s.running) } result
  rw [transact_serves (h := { s.port p with events := events }) ready clocks idle due rfl
      (by rcases service with rfl | rfl <;> nofun) (by rcases service with rfl | rfl <;> nofun),
    HostPort.finish_of_service (service.imp (congrArg some) (congrArg some))]
  exact modPort_congr (HostPort.served_eq ..).symm

/-- A whole TAKE at a port that listens (R162, R181). -/
theorem transact_take {events : EventUnit} {result : List Byte} (ready : s.listens p) (low : BitVec 4)
    (octets : List Byte) (acts : (s.port p).events.take = (events, result)) :
    s.transact .take p (txnBits 6 low octets) true = s.modPort p fun h =>
      ({ h with events := events } : HostPort).served (h.statusOctet s.running) (clockedOut result octets.length) :=
  transact_service ready (.inl rfl) (by revert low; decide)
    (fun _ _ _ => by simp only [HostPort.serve, acts]) octets

/-- A whole DONE at a port that listens (R162, R183). -/
theorem transact_done {events : EventUnit} {result : List Byte} (ready : s.listens p) (low : BitVec 4)
    (octets : List Byte) (acts : (s.port p).events.serviceDone = (events, result)) :
    s.transact .serviceDone p (txnBits 7 low octets) true = s.modPort p fun h =>
      ({ h with events := events } : HostPort).served (h.statusOctet s.running) (clockedOut result octets.length) :=
  transact_service ready (.inr rfl) (by revert low; decide)
    (fun _ _ _ => by simp only [HostPort.serve, acts]) octets

end State

/-- Settles O16: no kind is chosen, or the chosen one is handed out, or the service stack is full. -/
theorem takeHandsOutEvent : Obligations.TakeHandsOutEvent := by
  intro p low octets s ready takes
  refine ⟨fun idle => ?_, fun k counts first lowest => ?_⟩ <;> refine congrArg Host.Outcome.next ?_
  · exact (State.transact_take ready low octets (EventUnit.take_of_none (EventUnit.chosen_eq_none idle))).trans
      (State.modPort_congr rfl)
  · have chosen := EventUnit.chosen_eq_some counts first lowest
    by_cases room : (s.port p).events.stack.length < 2
    · exact (State.transact_take ready low octets (EventUnit.take_of_room chosen counts room)).trans
        (State.modPort_congr (if_pos room).symm)
    · exact (State.transact_take ready low octets (EventUnit.take_of_full chosen room)).trans
        (State.modPort_congr (if_neg room).symm)

/-- Settles O17: the service stack is empty, or its top level goes. -/
theorem doneEndsService : Obligations.DoneEndsService := by
  intro p low octets s ready ends
  refine ⟨fun empty => ⟨0, 0, ?_⟩, fun l rest stack => ?_⟩ <;> refine congrArg Host.Outcome.next ?_
  · exact (State.transact_done ready low octets (EventUnit.serviceDone_of_empty empty)).trans
      (State.modPort_congr rfl)
  · exact (State.transact_done ready low octets (EventUnit.serviceDone_of_cons stack)).trans
      (State.modPort_congr rfl)

/-! ### A whole EVENTSET (R184) -/

/-- A number of sixteen bits is read back from its two octets (R186). -/
theorem numAt_octetsNat {n : Nat} (small : n < 65536) (a b : Byte) :
    256 * numAt (a :: b :: octetsNat n) 2 + numAt (a :: b :: octetsNat n) 3 = n := by
  show 256 * ((BitVec.ofNat 16 n).extractLsb' 8 8).toNat + ((BitVec.ofNat 16 n).extractLsb' 0 8).toNat = n
  simp only [BitVec.extractLsb'_toNat, BitVec.toNat_ofNat, Nat.shiftRight_eq_div_pow]
  omega

/-- An EVENTSET is accepted for four octets in range (R184). -/
theorem eventsetGood_iff (taken : List Byte) : eventsetGood taken = true ↔
    taken.length = 4 ∧ (octetAt taken 0).getLsbD 7 = false ∧ (octetAt taken 1).getLsbD 7 = false ∧
      1 ≤ 256 * numAt taken 2 + numAt taken 3 ∧ 256 * numAt taken 2 + numAt taken 3 ≤ 4096 := by
  simp only [eventsetGood, Bool.and_eq_true, beq_iff_eq, Bool.not_eq_true', decide_eq_true_iff,
    and_assoc]
  rfl

namespace HostPort

theorem takeEventset_of_not_attached {h : HostPort} (ha : h.attached = false) (taken : List Byte) :
    h.takeEventset taken = h := by
  simp [takeEventset, ha]

/-- An EVENTSET of an ATTACHED port writes its settings or raises PROTOCOL (R184). -/
theorem takeEventset_of_attached {h : HostPort} (ha : h.attached = true) (taken : List Byte) :
    h.takeEventset taken = if eventsetGood taken then
      { h with
        events := h.events.set (octetAt taken 0) (octetAt taken 1) (256 * numAt taken 2 + numAt taken 3) }
    else h.raise .protocol := if_pos ha

/-- The octets after an EVENTSET's header are taken in while octets of 0 go out (R162, R184). -/
theorem clockOctets_eventset (block : HostPort → List Byte) (octets : List Byte) :
    ∀ (h : HostPort) (taken : List Byte),
      octets.foldl (clockOctet block) { h with txn := some { Txn.start .eventset [] false with taken := taken } } =
        { h with
          txn := some { Txn.start .eventset [] false with taken := taken ++ octets }
          hdo := h.hdo ++ spiBits (zeros octets.length) } := by
  induction octets with
  | nil => intro h taken; simp [zeros]
  | cons b octets ih =>
    intro h taken
    refine (ih { h with hdo := h.hdo ++ octetBits 0 } (taken ++ [b])).trans ?_
    simp [zeros, List.replicate_succ]

end HostPort

/-- A whole EVENTSET at a port that listens is judged at its completion (R162, R184). -/
theorem State.transact_eventset {s : State} {p : Port} (ready : s.listens p) (low : BitVec 4) (octets : List Byte) :
    s.transact .eventset p (txnBits 8 low octets) true = s.modPort p fun h =>
      (h.takeEventset octets).served (h.statusOctet s.running) (zeros octets.length) := by
  obtain ⟨-, -, due, idle⟩ := id ready
  have named : headerKind ((8 : BitVec 4) ++ low : Byte) = .eventset := by revert low; decide
  have clocks : (s.clocked p (txnBits 8 low octets)).port p = { s.port p with
      txn := some { Txn.start .eventset [] false with taken := octets }
      hdo := spiBits ((s.port p).statusOctet s.running :: zeros octets.length) } := by
    obtain ⟨txn, header⟩ := HostPort.clockOctet_header (s.blockOf p) idle s.running ((8 : BitVec 4) ++ low)
    rw [clocked_txnBits idle, header, named]
    exact HostPort.clockOctets_eventset _ octets
      { s.port p with hdo := octetBits ((s.port p).statusOctet s.running) } []
  rw [transact_serves ready clocks idle due rfl nofun nofun]
  exact modPort_congr (HostPort.served_eq ..).symm

/-- Settles O18: `HostPort.takeEventset` of a port that is not ATTACHED, of octets in range, and of any others. -/
theorem eventsetWritesSettings : Obligations.EventsetWritesSettings := by
  intro p low octets s ready sets
  refine ⟨fun detached => ?_, fun enables levels threshold ha he hl least most format => ?_, fun ha bad => ?_⟩ <;>
    refine congrArg Host.Outcome.next ((State.transact_eventset ready low octets).trans (State.modPort_congr ?_))
  · rw [HostPort.takeEventset_of_not_attached detached]
  · subst format
    have read := numAt_octetsNat (n := threshold) (by omega) enables levels
    have good : eventsetGood (enables :: levels :: octetsNat threshold) = true :=
      (eventsetGood_iff _).mpr ⟨rfl, he, hl, by rw [read]; exact least, by rw [read]; exact most⟩
    rw [HostPort.takeEventset_of_attached ha, if_pos good, read]
    rfl
  · have refused : ¬ eventsetGood octets = true := by
      rw [eventsetGood_iff]
      rintro ⟨length, he, hl, least, most⟩
      rcases bad with bad | bad | bad | bad | bad
      · exact bad length
      · exact absurd (he.symm.trans bad) nofun
      · exact absurd (hl.symm.trans bad) nofun
      all_goals omega
    rw [HostPort.takeEventset_of_attached ha, if_neg refused]

end Sys2Proof.Machine
end

section
/-! SUPPORT. The step on a queue with a command at its front (log 17). -/

namespace Sys2Proof.Machine

/-- The front command leaves the queue before it is carried out (log 17). -/
theorem step_of_pending {s : State} {c : Instr} {rest : List Instr} (queue : s.pending = c :: rest) :
    step s = exec c { s with pending := rest } := by
  unfold step
  rw [queue]

/-- Settles O1: the state's queue is the one given, and its other fields are those of `s`. -/
theorem stepRunsFrontCommand : Obligations.StepRunsFrontCommand :=
  fun c rest s => step_of_pending (s := { s with pending := c :: rest }) rfl

end Sys2Proof.Machine
end
